-- ==== Sys2Proof/Word.lean ====
section
/-! DEFINITION. The bit-vector types of LCDFSM and the font choice: spec/00_scope.md R9, spec/30_encoding.md R71. -/

namespace Sys2Proof

/-- `u8`: an unsigned 8-bit value; sums and shifts are modulo 256 (R9, R11). -/
abbrev Byte := BitVec 8

/-- `u4`: one nibble, what the four data pins carry (R9, R53). -/
abbrev Nibble := BitVec 4

/-- A request word `W` of the format REQ80; bit 0 is the least significant bit (R71). -/
abbrev RequestWord := BitVec 80

/-- `fontSize: enum{5x8, 5x10}` (R5, R100). -/
inductive FontSize where
  | dots5x8
  | dots5x10
  deriving DecidableEq, Repr

end Sys2Proof
end

