-- ==== Sys2Proof/Syntax.lean ====
section
/-! DEFINITION. The 19 host operations of spec/30_encoding.md R72, one constructor per row of spec/opcode_table.json, each with
exactly the fields the row lists under "fields used". -/

namespace Sys2Proof

/-- An operation of the host (R72). Operands are unsigned and unchecked (R75). -/
inductive Instr where
  /-- INITIALIZE (0x01), R100. -/
  | init (columns rows : Byte) (fontSize : FontSize)
  /-- CLEAR (0x02), R120. -/
  | clear
  /-- HOME (0x03), R121. -/
  | home
  /-- SETCURSOR (0x04), R122. -/
  | setCursor (col row : Byte)
  /-- DISPLAY (0x05), R123. -/
  | display
  /-- NODISPLAY (0x06), R124. -/
  | noDisplay
  /-- CURSOR (0x07), R125. -/
  | cursor
  /-- NOCURSOR (0x08), R126. -/
  | noCursor
  /-- BLINK (0x09), R127. -/
  | blink
  /-- NOBLINK (0x0A), R128. -/
  | noBlink
  /-- SCROLLDISPLAYLEFT (0x0B), R129. -/
  | scrollDisplayLeft
  /-- SCROLLDISPLAYRIGHT (0x0C), R130. -/
  | scrollDisplayRight
  /-- LEFTTORIGHT (0x0D), R131. -/
  | leftToRight
  /-- RIGHTTOLEFT (0x0E), R132. -/
  | rightToLeft
  /-- AUTOSCROLL (0x0F), R133. -/
  | autoscroll
  /-- NOAUTOSCROLL (0x10), R134. -/
  | noAutoscroll
  /-- CREATECHAR (0x11), R135; `bitmap` is `bm[0]` first and has eight rows in a well-formed instruction. -/
  | createChar (slot : Byte) (bitmap : List Byte)
  /-- COMMAND (0x12), R160. -/
  | command (byte : Byte)
  /-- WRITEBYTE (0x13), R161. -/
  | writeByte (byte : Byte)
  deriving DecidableEq, Repr

end Sys2Proof
end

