-- ==== Sys2Proof/Decode.lean ====
section
/-! DEFINITION. Decoding of the 80-bit request word, total and rejecting by name, and the encoder written from the same table:
spec/30_encoding.md R71 to R75. -/

namespace Sys2Proof

/-- Why a word is rejected: its opcode is 0x00 or in 0x14 to 0xFF (R74). -/
inductive DecodeError where
  | illegalOpcode (opc : Byte)
  deriving DecidableEq, Repr

/-! ### The fields of the format (R71) -/

/-- `opc` = `W[79:72]`. -/
def fieldOpc (w : RequestWord) : Byte := w.extractLsb' 72 8

/-- `a` = `W[71:64]`. -/
def fieldA (w : RequestWord) : Byte := w.extractLsb' 64 8

/-- `b` = `W[7:0]`. -/
def fieldB (w : RequestWord) : Byte := w.extractLsb' 0 8

/-- `f` = `W[8]`: 0 is 5x8, 1 is 5x10. -/
def fieldF (w : RequestWord) : FontSize := if w.getLsbD 8 then .dots5x10 else .dots5x8

/-- `bm[i]` = `W[8i+7:8i]`. -/
def fieldBm (w : RequestWord) (i : Nat) : Byte := w.extractLsb' (8 * i) 8

/-- `bm[0]` to `bm[7]`, in that order. -/
def fieldBitmap (w : RequestWord) : List Byte :=
  [fieldBm w 0, fieldBm w 1, fieldBm w 2, fieldBm w 3, fieldBm w 4, fieldBm w 5, fieldBm w 6, fieldBm w 7]

/-! ### The decoder -/

/-- The opcode map of R72. A row reads only the fields it lists (R73); an unassigned opcode selects no operation (R74). -/
def decode (w : RequestWord) : Except DecodeError Instr :=
  match fieldOpc w with
  | 0x01#8 => .ok (.init (fieldA w) (fieldB w) (fieldF w))
  | 0x02#8 => .ok .clear
  | 0x03#8 => .ok .home
  | 0x04#8 => .ok (.setCursor (fieldA w) (fieldB w))
  | 0x05#8 => .ok .display
  | 0x06#8 => .ok .noDisplay
  | 0x07#8 => .ok .cursor
  | 0x08#8 => .ok .noCursor
  | 0x09#8 => .ok .blink
  | 0x0A#8 => .ok .noBlink
  | 0x0B#8 => .ok .scrollDisplayLeft
  | 0x0C#8 => .ok .scrollDisplayRight
  | 0x0D#8 => .ok .leftToRight
  | 0x0E#8 => .ok .rightToLeft
  | 0x0F#8 => .ok .autoscroll
  | 0x10#8 => .ok .noAutoscroll
  | 0x11#8 => .ok (.createChar (fieldA w) (fieldBitmap w))
  | 0x12#8 => .ok (.command (fieldA w))
  | 0x13#8 => .ok (.writeByte (fieldA w))
  | opc    => .error (.illegalOpcode opc)

/-- The bits of the word that an operation with this opcode reads: `opc` and the row's "fields used" (R72, R73). An unassigned
opcode reads no other field (R74). -/
def usedBits (opc : Byte) : RequestWord :=
  match opc with
  | 0x01#8 => 0xFFFF00000000000001FF#80
  | 0x04#8 => 0xFFFF00000000000000FF#80
  | 0x11#8 => 0xFFFFFFFFFFFFFFFFFFFF#80
  | 0x12#8 => 0xFFFF0000000000000000#80
  | 0x13#8 => 0xFFFF0000000000000000#80
  | _      => 0xFF000000000000000000#80

/-! ### The encoder -/

/-- The opcode of an operation (R72). -/
def Instr.opcode : Instr → Byte
  | .init _ _ _         => 0x01#8
  | .clear              => 0x02#8
  | .home               => 0x03#8
  | .setCursor _ _      => 0x04#8
  | .display            => 0x05#8
  | .noDisplay          => 0x06#8
  | .cursor             => 0x07#8
  | .noCursor           => 0x08#8
  | .blink              => 0x09#8
  | .noBlink            => 0x0A#8
  | .scrollDisplayLeft  => 0x0B#8
  | .scrollDisplayRight => 0x0C#8
  | .leftToRight        => 0x0D#8
  | .rightToLeft        => 0x0E#8
  | .autoscroll         => 0x0F#8
  | .noAutoscroll       => 0x10#8
  | .createChar _ _     => 0x11#8
  | .command _          => 0x12#8
  | .writeByte _        => 0x13#8

/-- The word of `opc`, `a` and the payload `p` (R71). -/
def packWord (opc a : Byte) (p : BitVec 64) : RequestWord :=
  (opc.setWidth 80 <<< 72) ||| (a.setWidth 80 <<< 64) ||| p.setWidth 80

/-- The bit `f` of a font size (R71). -/
def fontBit : FontSize → BitVec 1
  | .dots5x8  => 0
  | .dots5x10 => 1

/-- The payload of a bitmap: `bm[0]` is the least significant byte (R71). -/
def packBitmap (bitmap : List Byte) : BitVec 64 :=
  bitmap.foldr (fun row acc => (acc <<< 8) ||| row.setWidth 64) 0

/-- The operand `a` of an operation, 0 where it has none (R79). -/
def Instr.operandA : Instr → Byte
  | .init columns _ _  => columns
  | .setCursor col _   => col
  | .createChar slot _ => slot
  | .command byte      => byte
  | .writeByte byte    => byte
  | .clear | .home | .display | .noDisplay | .cursor | .noCursor | .blink | .noBlink
  | .scrollDisplayLeft | .scrollDisplayRight
  | .leftToRight | .rightToLeft | .autoscroll | .noAutoscroll => 0

/-- The payload of an operation, 0 where it has none (R79). -/
def Instr.payload : Instr → BitVec 64
  | .init _ rows fontSize => ((fontBit fontSize).setWidth 64 <<< 8) ||| rows.setWidth 64
  | .setCursor _ row      => row.setWidth 64
  | .createChar _ bitmap  => packBitmap bitmap
  | .command _ | .writeByte _
  | .clear | .home | .display | .noDisplay | .cursor | .noCursor | .blink | .noBlink
  | .scrollDisplayLeft | .scrollDisplayRight
  | .leftToRight | .rightToLeft | .autoscroll | .noAutoscroll => 0

/-- The canonical word: "An assembler sets every ignored bit of the word to 0" (R79). -/
def encode (i : Instr) : RequestWord := packWord i.opcode i.operandA i.payload

/-- The decoder on an opcode-table word of `nbits` bits (the table's one format has 80); bits above `nbits` are 0 (log 16). -/
def decodeTableWord (nbits w : Nat) : Option Instr :=
  match decode (BitVec.ofNat 80 (w % 2 ^ nbits)) with
  | .ok i    => some i
  | .error _ => none

end Sys2Proof
end

