-- ==== Sys2Proof/Config.lean ====
section
/-! DEFINITION. What is fixed for one machine and never changes while it runs: the timing parameters (spec/00_scope.md R6), the
command constants (spec/30_encoding.md R76), and the free values the spec leaves open. The machine takes a `Cmd` record in the
field `cmd` of its state (log 10). -/

namespace Sys2Proof

/-- The names of the eight `Timing` parameters (R6); an event `WAIT(P)` carries one. -/
inductive TimingParam where
  | powerUp | init1 | init2 | init3 | homeClear | enSetup | enPulse | enPost
  deriving DecidableEq, Repr

/-- The record `Timing`: eight durations in nanoseconds (R6). No rule of the machine reads a value of it; the observers of
Machine/Observe.lean take one as an argument. -/
structure Timing where
  powerUp   : Nat
  init1     : Nat
  init2     : Nat
  init3     : Nat
  homeClear : Nat
  enSetup   : Nat
  enPulse   : Nat
  enPost    : Nat
  deriving DecidableEq, Repr

/-- `Timing.P` for a parameter name `P`. -/
def Timing.get (t : Timing) : TimingParam → Nat
  | .powerUp   => t.powerUp
  | .init1     => t.init1
  | .init2     => t.init2
  | .init3     => t.init3
  | .homeClear => t.homeClear
  | .enSetup   => t.enSetup
  | .enPulse   => t.enPulse
  | .enPost    => t.enPost

/-- The source's minimums, column "source minimum" of R6's table; none is stated for `T_EN_SETUP`, which R230 counts as 0. -/
def Timing.minimums : Timing where
  powerUp   := 40000000
  init1     := 4100000
  init2     := 4100000
  init3     := 100000
  homeClear := 2000000
  enSetup   := 0
  enPulse   := 450
  enPost    := 37000

/-- The defaults, column "default (decision D12)" of R6's table. -/
def Timing.defaults : Timing where
  powerUp   := 50000000
  init1     := 4500000
  init2     := 4500000
  init3     := 150000
  homeClear := 2000000
  enSetup   := 1000
  enPulse   := 1000
  enPost    := 100000

/-- The record `Cmd` of command-byte constants (R7, R76), under the spec's names in Lean's spelling. -/
structure Cmd where
  clearDisplay        : Byte
  returnHome          : Byte
  entryModeSet        : Byte
  entryLeft           : Byte
  entryShiftIncrement : Byte
  displayControl      : Byte
  displayOn           : Byte
  cursorOn            : Byte
  blinkOn             : Byte
  cursorShift         : Byte
  displayMove         : Byte
  moveRight           : Byte
  moveLeft            : Byte
  functionSet         : Byte
  bus4Bit             : Byte
  twoLine             : Byte
  oneLine             : Byte
  font5x10            : Byte
  font5x8             : Byte
  setCgramAddr        : Byte
  setDdramAddr        : Byte
  deriving DecidableEq, Repr

/-- The column "default" of R76's table. -/
def Cmd.defaults : Cmd where
  clearDisplay        := 0x01
  returnHome          := 0x02
  entryModeSet        := 0x04
  entryLeft           := 0x02
  entryShiftIncrement := 0x01
  displayControl      := 0x08
  displayOn           := 0x04
  cursorOn            := 0x02
  blinkOn             := 0x01
  cursorShift         := 0x10
  displayMove         := 0x08
  moveRight           := 0x04
  moveLeft            := 0x00
  functionSet         := 0x20
  bus4Bit             := 0x00
  twoLine             := 0x08
  oneLine             := 0x00
  font5x10            := 0x04
  font5x8             := 0x00
  setCgramAddr        := 0x40
  setDdramAddr        := 0x80

/-- FREE VALUE (log 6): the levels the six pins take at the `k`-th reset, "any value, chosen at each reset" (R33, U1). Bit 0 is
RS, bit 1 is EN, bits 5 to 2 are D7 to D4. -/
opaque Config.pinDraw : Nat → BitVec 6

/-- FREE VALUE (log 9): the row of the table SETCURSOR would use where `NumLines` is 0, for which the clamp "would have no value"
(R106); no run reaches such a state in `Ready` (R25). -/
opaque Config.rowWithoutLines : Byte → Fin 4

end Sys2Proof
end

