-- ==== Sys2Proof/Machine/State.lean ====
section
/-! DEFINITION. The state of LCDFSM as plain data: spec/10_state.md R20 to R33, the host port of spec/30_encoding.md R70, and reset. -/

namespace Sys2Proof.Machine

/-- The function-set shadow register (R21); the bus width is not stored. -/
structure FunctionFlags where
  twoLine  : Bool
  font5x10 : Bool
  deriving DecidableEq, Repr

/-- The display-control shadow register (R22). -/
structure ControlFlags where
  displayOn : Bool
  cursorOn  : Bool
  blinkOn   : Bool
  deriving DecidableEq, Repr

/-- The entry-mode shadow register (R23). -/
structure EntryModeFlags where
  leftToRight : Bool
  autoscroll  : Bool
  deriving DecidableEq, Repr

/-- The initialisation state (R26). -/
inductive InitState where
  | uninitialized
  | initializing
  | ready
  deriving DecidableEq, Repr

/-- The completion status of an operation (R78, R190). -/
inductive Status where
  | ok
  | notInitialized
  | illegalOp
  | badOperand
  deriving DecidableEq, Repr

/-- The three output registers of the pins (R27): `d` has D4 as bit 0 and D7 as bit 3. -/
structure Pins where
  rs : Bool
  en : Bool
  d  : Nibble
  deriving DecidableEq, Repr

/-- The four events (R10, R175). -/
inductive Event where
  | rs (level : Bool)
  | en (level : Bool)
  | data (n : Nibble)
  | wait (p : TimingParam)
  deriving DecidableEq, Repr

/-- The sequencer (R29): idle, or running with the events not yet performed and the status to respond with at the end. -/
inductive Seq where
  | idle
  | running (pending : List Event) (status : Status)
  deriving DecidableEq, Repr

/-- What the host does at the port (R70, R220; log 4). -/
inductive PortInput where
  /-- `req_valid` = 1 with `req_word` = `w`, held until the block accepts it. -/
  | request (w : RequestWord)
  /-- One step with `req_valid` = 0. -/
  | quiet
  /-- One step with `rst` asserted; consecutive ones are one assertion, held (log 4). -/
  | reset
  deriving DecidableEq, Repr

/-- The complete state (R20) and the response port (R70), and four fields of the model's own: the configuration record `cmd`, "Not
state, but parameters of the step relation" (R31), which no step writes (log 10); `rst`, the level of the input `rst` in the step
before (log 4); `input` (log 4) and `resets` (log 6). -/
structure State where
  cmd            : Cmd
  functionFlags  : FunctionFlags
  controlFlags   : ControlFlags
  entryModeFlags : EntryModeFlags
  rowOffsetTable : Vector Byte 4
  numLines       : Byte
  initState      : InitState
  pins           : Pins
  seq            : Seq
  rsp            : Option Status
  rst            : Bool
  input          : List PortInput
  resets         : Nat
  deriving DecidableEq, Repr

/-- The reasons a step stops with a fault: none. The block has no fault; its errors are responses, which are next states
(R190, R195), and "Every step is enabled" (R175). Raised by nobody; safe (log 14). -/
inductive Fault where
  deriving DecidableEq, Repr

/-- The reasons the model has no meaning for an operation. -/
inductive Refusal where
  /-- An operation whose meaning is not written; raised by no arm of `exec` now. Safe: nothing is claimed of a refused step. -/
  | notModelled (mnemonic : String)
  deriving DecidableEq, Repr

/-- The pin levels drawn at the `k`-th reset: free values (R33, U1; log 6). -/
def drawnPins (k : Nat) : Pins where
  rs := (Config.pinDraw k).getLsbD 0
  en := (Config.pinDraw k).getLsbD 1
  d  := (Config.pinDraw k).extractLsb' 2 4

/-- The state that the `k`-th assertion of `rst` leaves: the table of R33, with `rst` still at 1; `input` is what the host presents
afterwards. -/
def State.atReset (cmd : Cmd) (k : Nat) (input : List PortInput) : State where
  cmd            := cmd
  functionFlags  := ⟨false, false⟩
  controlFlags   := ⟨false, false, false⟩
  entryModeFlags := ⟨false, false⟩
  rowOffsetTable := #v[0x00, 0x00, 0x00, 0x00]
  numLines       := 0
  initState      := .uninitialized
  pins           := drawnPins k
  seq            := .idle
  rsp            := none
  rst            := true
  input          := input
  resets         := k

/-- The machine right after power-on reset, with the default constants and no input presented yet (R33, R76, R220). -/
def State.reset : State := State.atReset Cmd.defaults 0 []

end Sys2Proof.Machine
end

