-- ==== Sys2Proof/Machine/Ops.lean ====
section
/-! DEFINITION. The shared operations: the micro-operations and the events (spec/43_transport.md R170 to R175, spec/42_framing.md
R160, R161), accepting, guarding and refusing an operation (spec/60_exceptions.md R191, R195), one step of the sequencer (R175) and
reset (spec/70_reset_and_hazards.md R220, R221). -/

namespace Sys2Proof.Machine

/-! ### Micro-operations: lists of events -/

/-- `pulseEnable()` (R172). -/
def pulseEnable : List Event :=
  [.en false, .wait .enSetup, .en true, .wait .enPulse, .en false, .wait .enPost]

/-- `sendNibble(n)`: bits 7 to 4 of the argument are ignored (R171). -/
def sendNibble (n : Byte) : List Event := .data (n.setWidth 4) :: pulseEnable

/-- `sendByte(v, rs)`: high nibble first, then low nibble (R52, R170). -/
def sendByte (v : Byte) (rs : Bool) : List Event := .rs rs :: (sendNibble (v >>> 4) ++ sendNibble v)

/-- The micro-operation `command(b)`: mode-select low (R160). -/
def command (b : Byte) : List Event := sendByte b false

/-- The micro-operation `writeByte(b)`: mode-select high (R161). -/
def writeByte (b : Byte) : List Event := sendByte b true

/-! ### Events on the pins -/

/-- What an event does to the pins (R175). -/
def Pins.perform (p : Pins) : Event → Pins
  | .rs level => { p with rs := level }
  | .en level => { p with en := level }
  | .data n   => { p with d := n }
  | .wait _   => p

/-- The pins after a list of events, performed in order (R59). -/
def Pins.performAll (p : Pins) (l : List Event) : Pins := l.foldl Pins.perform p

/-! ### Named updates of the state -/

/-- An accepted operation's event list is pending, with status OK (R175). -/
def State.started (s : State) (events : List Event) : State := { s with seq := .running events .ok }

/-- The response `status` is presented (R70). -/
def State.responded (s : State) (status : Status) : State := { s with rsp := some status }

/-- A step with `rst` not asserted begins: the host's remaining input is `rest`, and the response of the step before is over ("for
one step", R70). -/
def State.taken (s : State) (rest : List PortInput) : State := { s with input := rest, rsp := none, rst := false }

/-- A further step of an assertion of `rst`: "while asserted nothing happens" (R220, D19), and the pins hold their draw (R33). -/
def State.heldInReset (s : State) (rest : List PortInput) : State := { s with input := rest, rsp := none }

/-- The shadow of the display-control register is written (R22). -/
def State.withControl (s : State) (f : ControlFlags) : State := { s with controlFlags := f }

/-- The shadow of the entry-mode register is written (R23). -/
def State.withEntry (s : State) (f : EntryModeFlags) : State := { s with entryModeFlags := f }

/-- The head event is performed and dropped (R175). -/
def State.performed (s : State) (e : Event) (rest : List Event) (status : Status) : State :=
  { s with pins := s.pins.perform e, seq := .running rest status }

/-- `InitState` when the last event of an operation has completed: the deferred `InitState <- Ready` of INITIALIZE (R105, R175).
DEDUCED (log 3): the running operation is INITIALIZE just when `InitState` is `Initializing`. -/
def InitState.settled : InitState → InitState
  | .initializing  => .ready
  | .ready         => .ready
  | .uninitialized => .uninitialized

/-- The event list is empty: the deferred write, the response, and back to idle (R175). -/
def State.completed (s : State) (status : Status) : State :=
  { s with initState := s.initState.settled, seq := .idle, rsp := some status }

/-! ### Accepting an operation -/

/-- The outcome of an accepted operation that has passed its checks. -/
def start (events : List Event) (s : State) : Host.Outcome State Fault Refusal := .next (s.started events)

/-- `raise X`: "write no state, emit no event, respond(X)" (R10, R195): only the response is new. This is the block's whole
exception entry: nothing is saved and no control is transferred. -/
def raise (status : Status) (s : State) : Host.Outcome State Fault Refusal := .next (s.responded status)

/-- The guard of every operation but INITIALIZE (R138, R191). -/
def guarded (s : State) (body : State → Host.Outcome State Fault Refusal) : Host.Outcome State Fault Refusal :=
  if s.initState = .ready then body s else raise .notInitialized s

/-- A request whose opcode selects no operation (R74, R192). -/
def raiseIllegalOp (s : State) : Host.Outcome State Fault Refusal := raise .illegalOp s

/-! ### The sequencer and reset -/

/-- One step of the sequencer when no request is accepted (R175); an idle block does nothing (R220). -/
def advance (s : State) : State :=
  match s.seq with
  | .idle                   => s
  | .running [] status      => s.completed status
  | .running (e :: rest) st => s.performed e rest st

/-- A step with `rst` asserted (R220, R221). Where `rst` was not asserted in the step before, reset is applied: a running operation
is cut where it stands, without a response, and the pins are drawn afresh, once for the whole assertion. Where it was, nothing
happens. `rest` is the host's remaining input (log 4). -/
def takeReset (s : State) (rest : List PortInput) : State :=
  if s.rst then s.heldInReset rest else State.atReset s.cmd (s.resets + 1) rest

end Sys2Proof.Machine
end

