-- ==== Sys2Proof/Machine/Framing.lean ====
section
/-! DEFINITION. The meanings of COMMAND and WRITEBYTE: spec/42_framing.md R160 to R162. -/

namespace Sys2Proof.Machine

/-- COMMAND (R160): the byte as given, RS low; no shadow register follows it (R35) and no wait is added (R226). -/
def execCommand (byte : Byte) (s : State) : Host.Outcome State Fault Refusal := guarded s (start (command byte))

/-- WRITEBYTE (R161): the byte as given, RS high. -/
def execWriteByte (byte : Byte) (s : State) : Host.Outcome State Fault Refusal := guarded s (start (writeByte byte))

end Sys2Proof.Machine
end

