-- ==== Sys2Proof/Machine/Flags.lean ====
section
/-! DEFINITION. The three flag registers: serialisation to the command byte (spec/10_state.md R30) and the defaults INITIALIZE
sets (spec/40_initialize.md R107). -/

namespace Sys2Proof.Machine

/-- `if flag then a else b` on command-byte bits. -/
def flagBits (flag : Bool) (set clear : Byte) : Byte := if flag then set else clear

/-- `ser_function()` (R30). -/
def serFunction (c : Cmd) (f : FunctionFlags) : Byte :=
  c.functionSet ||| c.bus4Bit ||| flagBits f.twoLine c.twoLine c.oneLine ||| flagBits f.font5x10 c.font5x10 c.font5x8

/-- `ser_control()` (R30). -/
def serControl (c : Cmd) (f : ControlFlags) : Byte :=
  c.displayControl ||| flagBits f.displayOn c.displayOn 0 ||| flagBits f.cursorOn c.cursorOn 0
    ||| flagBits f.blinkOn c.blinkOn 0

/-- `ser_entry()` (R30). -/
def serEntry (c : Cmd) (f : EntryModeFlags) : Byte :=
  c.entryModeSet ||| flagBits f.leftToRight c.entryLeft 0 ||| flagBits f.autoscroll c.entryShiftIncrement 0

/-- Step 7 of INITIALIZE: display on, cursor off, blink off (R107). -/
def controlDefaults : ControlFlags := ⟨true, false, false⟩

/-- Step 9 of INITIALIZE: left to right, no auto-scroll (R107). -/
def entryDefaults : EntryModeFlags := ⟨true, false⟩

end Sys2Proof.Machine
end

