-- ==== Sys2Proof/Machine/Operands.lean ====
section
/-! DEFINITION. What the operations compute from their operands: row offsets (spec/40_initialize.md R101), the row clamp and the
DDRAM address (spec/41_high_level.md R122), the CGRAM address (R135), the checks and flags of INITIALIZE (R102, R106). -/

namespace Sys2Proof.Machine

/-- `setRowOffsets(columns)`; the last sum is modulo 256 (R101). -/
def rowOffsets (columns : Byte) : Vector Byte 4 := #v[0x00, 0x40, columns, 0x40 + columns]

/-- INITIALIZE's operand check: `rows` is in 1..4 (R100, R106). -/
def rowsLegal (rows : Byte) : Bool := rows != 0 && rows.toNat ≤ 4

/-- `FunctionFlags` from the operands of INITIALIZE: `two_line <- (rows > 1)`, `font5x10 <- (fontSize = 5x10)` (R102). -/
def functionFlagsOf (rows : Byte) (fontSize : FontSize) : FunctionFlags where
  twoLine  := decide (1 < rows.toNat)
  font5x10 := decide (fontSize = .dots5x10)

/-- SETCURSOR's `r <- min(row, min(4, NumLines) - 1)`, in 0..3 (R122). Where `NumLines` is 0 the clamp has no value and the row is
a free value (log 9). -/
def clampRow (row numLines : Byte) : Fin 4 :=
  if numLines = 0 then Config.rowWithoutLines row
  else ⟨min row.toNat (min 4 numLines.toNat - 1), by omega⟩

/-- SETCURSOR's `addr <- col + RowOffsetTable[r]`, modulo 256 (R122). -/
def ddramAddress (col row numLines : Byte) (table : Vector Byte 4) : Byte := col + table[clampRow row numLines]

/-- CREATECHAR's `s << 3` with `s <- slot & 0x07` (R135). -/
def cgramAddress (slot : Byte) : Byte := (slot &&& 0x07) <<< 3

end Sys2Proof.Machine
end

