-- ==== Sys2Proof/Machine/HighLevel.lean ====
section
/-! DEFINITION. The meanings of the sixteen high-level operations: spec/41_high_level.md R120 to R140. Each is guarded (R138) and,
where it writes a register, writes it at acceptance and sends the whole register as it is after the write (R137). -/

namespace Sys2Proof.Machine

/-! ### Shared forms -/

/-- Send one command byte and write no register. -/
def sendCommand (b : Byte) (s : State) : Host.Outcome State Fault Refusal :=
  guarded s (start (command b))

/-- Send one command byte, then wait `T_HOMECLEAR` (R120, R121). -/
def sendSlowCommand (b : Byte) (s : State) : Host.Outcome State Fault Refusal :=
  guarded s (start (command b ++ [.wait .homeClear]))

/-- Write the control register, then send it (R137). -/
def updateControl (f : ControlFlags → ControlFlags) (s : State) : Host.Outcome State Fault Refusal :=
  guarded s fun s => start (command (serControl s.cmd (f s.controlFlags))) (s.withControl (f s.controlFlags))

/-- Write the entry-mode register, then send it (R137). -/
def updateEntry (f : EntryModeFlags → EntryModeFlags) (s : State) : Host.Outcome State Fault Refusal :=
  guarded s fun s => start (command (serEntry s.cmd (f s.entryModeFlags))) (s.withEntry (f s.entryModeFlags))

/-! ### Clear and home -/

/-- CLEAR (R120). -/
def execClear (s : State) : Host.Outcome State Fault Refusal := sendSlowCommand s.cmd.clearDisplay s

/-- HOME (R121). -/
def execHome (s : State) : Host.Outcome State Fault Refusal := sendSlowCommand s.cmd.returnHome s

/-! ### Cursor position -/

/-- SETCURSOR (R122): the address is OR-ed into the command; no register is written. -/
def execSetCursor (col row : Byte) (s : State) : Host.Outcome State Fault Refusal :=
  sendCommand (s.cmd.setDdramAddr ||| ddramAddress col row s.numLines s.rowOffsetTable) s

/-! ### Display control register -/

/-- DISPLAY (R123): sets `display_on` and nothing else (R139). -/
def execDisplay (s : State) : Host.Outcome State Fault Refusal := updateControl (fun f => { f with displayOn := true }) s

/-- NODISPLAY (R124). -/
def execNoDisplay (s : State) : Host.Outcome State Fault Refusal := updateControl (fun f => { f with displayOn := false }) s

/-- CURSOR (R125). -/
def execCursor (s : State) : Host.Outcome State Fault Refusal := updateControl (fun f => { f with cursorOn := true }) s

/-- NOCURSOR (R126). -/
def execNoCursor (s : State) : Host.Outcome State Fault Refusal := updateControl (fun f => { f with cursorOn := false }) s

/-- BLINK (R127). -/
def execBlink (s : State) : Host.Outcome State Fault Refusal := updateControl (fun f => { f with blinkOn := true }) s

/-- NOBLINK (R128). -/
def execNoBlink (s : State) : Host.Outcome State Fault Refusal := updateControl (fun f => { f with blinkOn := false }) s

/-! ### Display shift -/

/-- SCROLLDISPLAYLEFT (R129). -/
def execScrollDisplayLeft (s : State) : Host.Outcome State Fault Refusal :=
  sendCommand (s.cmd.cursorShift ||| s.cmd.displayMove ||| s.cmd.moveLeft) s

/-- SCROLLDISPLAYRIGHT (R130). -/
def execScrollDisplayRight (s : State) : Host.Outcome State Fault Refusal :=
  sendCommand (s.cmd.cursorShift ||| s.cmd.displayMove ||| s.cmd.moveRight) s

/-! ### Entry mode register -/

/-- LEFTTORIGHT (R131). -/
def execLeftToRight (s : State) : Host.Outcome State Fault Refusal := updateEntry (fun f => { f with leftToRight := true }) s

/-- RIGHTTOLEFT (R132). -/
def execRightToLeft (s : State) : Host.Outcome State Fault Refusal := updateEntry (fun f => { f with leftToRight := false }) s

/-- AUTOSCROLL (R133). -/
def execAutoscroll (s : State) : Host.Outcome State Fault Refusal := updateEntry (fun f => { f with autoscroll := true }) s

/-- NOAUTOSCROLL (R134). -/
def execNoAutoscroll (s : State) : Host.Outcome State Fault Refusal := updateEntry (fun f => { f with autoscroll := false }) s

/-! ### Custom glyphs -/

/-- CREATECHAR (R135): the address command, then the bitmap rows in index order; no address is restored afterwards. -/
def execCreateChar (slot : Byte) (bitmap : List Byte) (s : State) : Host.Outcome State Fault Refusal :=
  guarded s (start (command (s.cmd.setCgramAddr ||| cgramAddress slot) ++ bitmap.flatMap writeByte))

end Sys2Proof.Machine
end

