-- ==== Sys2Proof/Machine/Initialization.lean ====
section
/-! DEFINITION. The meaning of INITIALIZE: spec/40_initialize.md R100 to R107. -/

namespace Sys2Proof.Machine

/-- Steps 2 and 3: the power-up wait, then RS and EN driven low (R103). -/
def handshakePreamble : List Event := [.wait .powerUp, .rs false, .en false]

/-- Steps 4 and 5: nibble 0x3 three times, each with its own wait, then nibble 0x2 (R103). -/
def handshakeNibbles : List Event :=
  sendNibble 0x3 ++ [.wait .init1] ++ sendNibble 0x3 ++ [.wait .init2] ++ sendNibble 0x3 ++ [.wait .init3] ++ sendNibble 0x2

/-- The 95 events of INITIALIZE; only the byte of step 6 depends on the operands (R100). -/
def initEvents (c : Cmd) (f : FunctionFlags) : List Event :=
  handshakePreamble ++ handshakeNibbles
    ++ command (serFunction c f)
    ++ command (serControl c controlDefaults)
    ++ command c.clearDisplay ++ [.wait .homeClear]
    ++ command (serEntry c entryDefaults)

/-- The register writes of INITIALIZE, all at acceptance but the deferred `InitState <- Ready` (R100, R105; D22). -/
def State.configured (s : State) (columns rows : Byte) (fontSize : FontSize) : State :=
  { s with
    initState      := .initializing
    rowOffsetTable := rowOffsets columns
    numLines       := rows
    functionFlags  := functionFlagsOf rows fontSize
    controlFlags   := controlDefaults
    entryModeFlags := entryDefaults }

/-- INITIALIZE (R100): no guard; `rows` outside 1..4 is refused with BAD_OPERAND and no effect (R106). -/
def execInit (columns rows : Byte) (fontSize : FontSize) (s : State) : Host.Outcome State Fault Refusal :=
  if rowsLegal rows then
    start (initEvents s.cmd (functionFlagsOf rows fontSize)) (s.configured columns rows fontSize)
  else raise .badOperand s

end Sys2Proof.Machine
end

