-- ==== Sys2Proof/Machine/Step.lean ====
section
/-! DEFINITION. One step of the machine: spec/43_transport.md R175, spec/30_encoding.md R70, spec/70_reset_and_hazards.md R220. -/

namespace Sys2Proof.Machine

/-- One step. `rst` comes before everything (R220). A request is accepted only in `Idle` (R29) and is decoded and executed in that
step (R70); while an operation runs a presented request waits and the sequencer performs one event (R175). -/
def step (s : State) : Host.Outcome State Fault Refusal :=
  match s.input with
  | []             => .next (advance (s.taken []))
  | .quiet :: rest => .next (advance (s.taken rest))
  | .reset :: rest => .next (takeReset s rest)
  | .request w :: rest =>
    match s.seq with
    | .running _ _ => .next (advance (s.taken (.request w :: rest)))
    | .idle =>
      match decode w with
      | .ok i    => exec i (s.taken rest)
      | .error _ => raiseIllegalOp (s.taken rest)

/-- `s` with the block idle and the word presented at the request port, so that the very next step accepts and runs it (log 8). -/
def State.withFetchWord (s : State) (nbits w : Nat) : State :=
  { s with seq := .idle, input := .request (BitVec.ofNat 80 (w % 2 ^ nbits)) :: s.input }

end Sys2Proof.Machine
end

