-- ==== Sys2Proof/Machine/Assembler.lean ====
section
/-! DEFINITION. The textual form of the operations and the pseudo-operation WRITETEXT: spec/30_encoding.md R79, R80. Text is a list
of characters. -/

namespace Sys2Proof.Machine

/-! ### WRITETEXT -/

/-- "the string is cut before its first terminator", the byte 0x00, and every byte before it becomes a WRITEBYTE (R80). -/
def expandText (text : List Byte) : List Instr := (text.takeWhile (· != 0)).map .writeByte

/-! ### Lines and tokens -/

/-- White space between tokens (log 17). -/
def isBlank (c : Char) : Bool := c == ' ' || c == '\t'

/-- The double quote around a text. -/
def quoteChar : Char := Char.ofNat 34

/-- A line without white space at its two ends. -/
def trimLine (l : List Char) : List Char := ((l.dropWhile isBlank).reverse.dropWhile isBlank).reverse

/-- A line without its comment: `;` starts one (R79), but not inside a quoted text (log 17). -/
def stripComment (quoted : Bool) : List Char → List Char
  | []     => []
  | c :: l =>
    if c == quoteChar then c :: stripComment (!quoted) l
    else if c == ';' && !quoted then []
    else c :: stripComment quoted l

/-- The pieces of a line between commas; `piece` is what stands before it since the last comma, reversed. -/
def splitCommas (piece : List Char) : List Char → List (List Char)
  | []     => [piece.reverse]
  | c :: l => if c == ',' then piece.reverse :: splitCommas [] l else splitCommas (c :: piece) l

/-- The operands of an operation: none, or pieces separated by commas (R79). -/
def operandsOf (l : List Char) : List (List Char) :=
  match trimLine l with
  | []   => []
  | rest => (splitCommas [] rest).map trimLine

/-! ### Operands -/

/-- A digit in base 10 or 16. -/
def digitValue (base : Nat) (c : Char) : Option Nat :=
  let n := c.toNat
  let v :=
    if 48 ≤ n ∧ n ≤ 57 then some (n - 48)
    else if 65 ≤ n ∧ n ≤ 70 then some (n - 55)
    else if 97 ≤ n ∧ n ≤ 102 then some (n - 87)
    else none
  v.bind fun d => if d < base then some d else none

/-- A non-empty string of digits. -/
def digitsValue (base acc : Nat) : List Char → Option Nat
  | []     => none
  | [c]    => (digitValue base c).map (acc * base + ·)
  | c :: l => (digitValue base c).bind fun d => digitsValue base (acc * base + d) l

/-- A `u8` operand: decimal, or hexadecimal after `0x` (R79); a number above 255 is no operand (log 17). -/
def parseByte (l : List Char) : Option Byte :=
  let v :=
    match l with
    | '0' :: 'x' :: digits => digitsValue 16 0 digits
    | digits               => digitsValue 10 0 digits
  v.bind fun n => if n < 256 then some (BitVec.ofNat 8 n) else none

/-- `fontSize` is written `5x8` or `5x10` (R79). -/
def parseFont (l : List Char) : Option FontSize :=
  if l = "5x8".toList then some .dots5x8 else if l = "5x10".toList then some .dots5x10 else none

/-! ### Operations -/

/-- The operations without operands and their mnemonics (R72). -/
def plainMnemonics : List (String × Instr) :=
  [("CLEAR", .clear), ("HOME", .home), ("DISPLAY", .display), ("NODISPLAY", .noDisplay), ("CURSOR", .cursor),
   ("NOCURSOR", .noCursor), ("BLINK", .blink), ("NOBLINK", .noBlink), ("SCROLLDISPLAYLEFT", .scrollDisplayLeft),
   ("SCROLLDISPLAYRIGHT", .scrollDisplayRight), ("LEFTTORIGHT", .leftToRight), ("RIGHTTOLEFT", .rightToLeft),
   ("AUTOSCROLL", .autoscroll), ("NOAUTOSCROLL", .noAutoscroll)]

/-- An operation from its mnemonic and operands (R79). -/
def parseOperation (mnemonic : List Char) (operands : List (List Char)) : Option Instr :=
  match plainMnemonics.find? (fun row => row.1.toList = mnemonic), operands with
  | some (_, i), []     => some i
  | some _, _ :: _      => none
  | none, operands      =>
    if mnemonic = "INITIALIZE".toList then
      match operands with
      | [columns, rows, font] => do return .init (← parseByte columns) (← parseByte rows) (← parseFont font)
      | _ => none
    else if mnemonic = "SETCURSOR".toList then
      match operands with
      | [col, row] => do return .setCursor (← parseByte col) (← parseByte row)
      | _ => none
    else if mnemonic = "CREATECHAR".toList then
      match operands with
      | [slot, b0, b1, b2, b3, b4, b5, b6, b7] => do
        return .createChar (← parseByte slot) (← [b0, b1, b2, b3, b4, b5, b6, b7].mapM parseByte)
      | _ => none
    else if mnemonic = "COMMAND".toList then
      match operands with
      | [byte] => do return .command (← parseByte byte)
      | _ => none
    else if mnemonic = "WRITEBYTE".toList then
      match operands with
      | [byte] => do return .writeByte (← parseByte byte)
      | _ => none
    else none

/-- The byte code of a character (R80); one above 255 has none (log 17). -/
def charByte (c : Char) : Option Byte := if c.toNat < 256 then some (BitVec.ofNat 8 c.toNat) else none

/-- The text between two double quotes, and nothing after them. -/
def parseQuoted (l : List Char) : Option (List Byte) :=
  match l with
  | [] => none
  | c :: rest =>
    if c == quoteChar && rest.dropWhile (· != quoteChar) == [quoteChar] then
      (rest.takeWhile (· != quoteChar)).mapM charByte
    else none

/-- The operations of one line: none for an empty line, one for an operation, one per character for WRITETEXT (R79, R80). -/
def parseLine (line : List Char) : Option (List Instr) :=
  let l := trimLine (stripComment false line)
  let mnemonic := l.takeWhile (fun c => !isBlank c)
  let rest := l.dropWhile (fun c => !isBlank c)
  if l = [] then some []
  else if mnemonic = "WRITETEXT".toList then (parseQuoted (trimLine rest)).map expandText
  else (parseOperation mnemonic (operandsOf rest)).map ([·])

/-- The request words of one line (R79). -/
def assembleLine (line : List Char) : Option (List RequestWord) := (parseLine line).map (·.map encode)

/-- The request words of a program, "operations one per line" (R79). -/
def assembleProgram (lines : List (List Char)) : Option (List RequestWord) := (lines.mapM assembleLine).map List.flatten

end Sys2Proof.Machine
end

