-- ==== Sys2Proof/WellFormed.lean ====
section
/-! DEFINITION. The two checks of LCDFSM: that a term of `Instr` is one a request word can carry, and that a `Timing` record is at
or above the source's minimums (spec/00_scope.md R6, spec/70_reset_and_hazards.md R224). -/

namespace Sys2Proof

/-- The format has exactly eight bitmap rows `bm[0]` to `bm[7]` (R71, R135); every other operand is a field of its own width,
and every value of it is legal in the word (R75). -/
def Instr.wellFormed : Instr → Bool
  | .init _ _ _         => true
  | .clear              => true
  | .home               => true
  | .setCursor _ _      => true
  | .display            => true
  | .noDisplay          => true
  | .cursor             => true
  | .noCursor           => true
  | .blink              => true
  | .noBlink            => true
  | .scrollDisplayLeft  => true
  | .scrollDisplayRight => true
  | .leftToRight        => true
  | .rightToLeft        => true
  | .autoscroll         => true
  | .noAutoscroll       => true
  | .createChar _ bitmap => bitmap.length == 8
  | .command _          => true
  | .writeByte _        => true

/-- "A `Timing` record is well formed when every field is at least its minimum" (R6, R224). -/
def Timing.wellFormed (t : Timing) : Bool :=
  decide (Timing.minimums.powerUp ≤ t.powerUp) && decide (Timing.minimums.init1 ≤ t.init1)
    && decide (Timing.minimums.init2 ≤ t.init2) && decide (Timing.minimums.init3 ≤ t.init3)
    && decide (Timing.minimums.homeClear ≤ t.homeClear) && decide (Timing.minimums.enSetup ≤ t.enSetup)
    && decide (Timing.minimums.enPulse ≤ t.enPulse) && decide (Timing.minimums.enPost ≤ t.enPost)

end Sys2Proof
end

