-- ==== Sys2Proof/Machine/Observe.lean ====
section
/-! DEFINITION. What is seen from outside: the output ports (spec/30_encoding.md R70), the run as a list of (request, events, status)
and reset markers (spec/92_eei_decisions.md D1), and the measures of an event list: counts (spec/43_transport.md R174), offers
(spec/30_encoding.md R77), waveform (R176), duration (spec/70_reset_and_hazards.md R230) and admissible times
(spec/60_exceptions.md R200). -/

namespace Sys2Proof.Machine

/-! ### Output ports -/

/-- `req_ready = (seq = Idle)` (R70). -/
def State.reqReady (s : State) : Bool := decide (s.seq = .idle)

/-- `busy = (seq ≠ Idle)` (R29, R70). -/
def State.busy (s : State) : Bool := !s.reqReady

/-- `rsp_valid` (R70). -/
def State.rspValid (s : State) : Bool := s.rsp.isSome

/-- The 2-bit code of a status (R78). -/
def Status.code : Status → BitVec 2
  | .ok             => 0
  | .notInitialized => 1
  | .illegalOp      => 2
  | .badOperand     => 3

/-- `rsp_status`, which means something only while `rsp_valid` = 1 (R70, R78). -/
def State.rspStatus (s : State) : Option (BitVec 2) := s.rsp.map Status.code

/-- The pin `D4` (R27, R53). -/
def State.pinD4 (s : State) : Bool := s.pins.d.getLsbD 0

/-- The pin `D5` (R27, R53). -/
def State.pinD5 (s : State) : Bool := s.pins.d.getLsbD 1

/-- The pin `D6` (R27, R53). -/
def State.pinD6 (s : State) : Bool := s.pins.d.getLsbD 2

/-- The pin `D7` (R27, R53). -/
def State.pinD7 (s : State) : Bool := s.pins.d.getLsbD 3

/-- The port `RW`: constant 0 in every state, with no register behind it (R28). -/
def State.rw (_ : State) : Bool := false

/-! ### The run as the host and the pins see it -/

/-- One thing a step shows. -/
inductive Obs where
  | accepted (w : RequestWord)
  | event (e : Event)
  | response (status : Status)
  | resetMark
  deriving DecidableEq, Repr

/-- The request the next step accepts, if any (R70). -/
def acceptance (s : State) : Option RequestWord :=
  match s.input, s.seq with
  | .request w :: _, .idle => some w
  | _, _                   => none

/-- The event the next step performs when `rst` is not asserted (R175). -/
def nextEvent (s : State) : Option Event :=
  match s.seq with
  | .running (e :: _) _ => some e
  | _                   => none

/-- The response the next step presents. -/
def nextResponse (s : State) : Option Status :=
  match step s with
  | .next t => t.rsp
  | _       => none

/-- What the next step shows, in order; an assertion of `rst`, however long, shows one reset marker (R221, log 4). -/
def observe (s : State) : List Obs :=
  match s.input with
  | .reset :: _ => if s.rst then [] else [.resetMark]
  | _ => (acceptance s).toList.map .accepted ++ (nextEvent s).toList.map .event ++ (nextResponse s).toList.map .response

/-- What `n` steps show. -/
def runObs : Nat → State → List Obs
  | 0, _     => []
  | n + 1, s =>
    match step s with
    | .next t => observe s ++ runObs n t
    | _       => observe s

/-- An element of the observation of a run: a request with its performed events and its status (none for a cut or unfinished
operation), or a reset marker (R221, D1). -/
inductive RunItem where
  | operation (w : RequestWord) (events : List Event) (status : Option Status)
  | resetMarker
  deriving DecidableEq, Repr

/-- The operation still open, without a response. -/
def openItem : Option (RequestWord × List Event) → List RunItem
  | none        => []
  | some (w, l) => [.operation w l none]

/-- The (request, events, status) triples of a run (R70), given the operation already under way. -/
def records (current : Option (RequestWord × List Event)) : List Obs → List RunItem
  | [] => openItem current
  | .accepted w :: l => openItem current ++ records (some (w, [])) l
  | .event e :: l    => records (current.map fun (w, es) => (w, es ++ [e])) l
  | .response st :: l =>
    (match current with
      | none         => []
      | some (w, es) => [RunItem.operation w es (some st)]) ++ records none l
  | .resetMark :: l  => openItem current ++ .resetMarker :: records none l

/-! ### An operation as one function -/

/-- The state after the running operation, if any, has performed all its events and responded. -/
def State.finished (s : State) : State :=
  match s.seq with
  | .idle         => s
  | .running l st => State.completed { s with pins := s.pins.performAll l } st

/-- The big-step reading of an operation (R10, R175): accepted and run to its response. -/
def operate (i : Instr) (s : State) : State :=
  match exec i s with
  | .next t => t.finished
  | _       => s

/-- Operations one after another, in acceptance order (R59). -/
def operateAll (l : List Instr) (s : State) : State := l.foldl (fun s i => operate i s) s

/-- The events an operation performs when it is accepted in `s` (R10). -/
def operationEvents (i : Instr) (s : State) : List Event :=
  match exec i s with
  | .next t =>
    match t.seq with
    | .running l _ => l
    | .idle        => []
  | _ => []

/-- The events of operations one after another (R59). -/
def traceAll : List Instr → State → List Event
  | [], _     => []
  | i :: l, s => operationEvents i s ++ traceAll l (operate i s)

/-! ### Measures of an event list -/

/-- The number of EN pulses, that is, of `EN(1)` events (R174). -/
def enPulses (l : List Event) : Nat := l.countP (· == .en true)

/-- The number of `RS` events (R174). -/
def rsEvents (l : List Event) : Nat := l.countP fun e => match e with | .rs _ => true | _ => false

/-- The number of `DATA` events, one per nibble (R173). -/
def dataEvents (l : List Event) : Nat := l.countP fun e => match e with | .data _ => true | _ => false

/-- The number of `WAIT` events (R174). -/
def waitEvents (l : List Event) : Nat := l.countP fun e => match e with | .wait _ => true | _ => false

/-- The minimum time an event adds: `Timing.P` for `WAIT(P)`, nothing for a pin event (R60, R200). -/
def Event.minTime (t : Timing) : Event → Nat
  | .wait p => t.get p
  | .rs _ | .en _ | .data _ => 0

/-- The sum of the minimum waits (R230). -/
def duration (t : Timing) (l : List Event) : Nat := (l.map (Event.minTime t)).sum

/-- The (RS, nibble) pairs offered to the display, one on each `EN(1)` followed by `EN(0)` (R77); `armed` says that an `EN(1)` has
come and its `EN(0)` has not. -/
def offersFrom (p : Pins) (armed : Bool) : List Event → List (Bool × Nibble)
  | []             => []
  | .en true :: l  => offersFrom (p.perform (.en true)) true l
  | .en false :: l => (if armed then [(p.rs, p.d)] else []) ++ offersFrom (p.perform (.en false)) false l
  | .rs b :: l     => offersFrom (p.perform (.rs b)) armed l
  | .data n :: l   => offersFrom (p.perform (.data n)) armed l
  | .wait _ :: l   => offersFrom p armed l

/-- The offers of a trace that starts between pulses. -/
def offers (p : Pins) (l : List Event) : List (Bool × Nibble) := offersFrom p false l

/-- The waveform (R176) from a vector already held at least `held` nanoseconds: each vector with the least time it is held. A write
of the level a pin already has does not appear (log 15). -/
def waveformFrom (t : Timing) (p : Pins) (held : Nat) : List Event → List (Pins × Nat)
  | []     => [(p, held)]
  | e :: l =>
    if p.perform e = p then waveformFrom t p (held + e.minTime t) l
    else (p, held) :: waveformFrom t (p.perform e) 0 l

/-- The waveform of a trace from a start vector (R176). -/
def waveform (t : Timing) (p : Pins) (l : List Event) : List (Pins × Nat) := waveformFrom t p 0 l

/-- Times at which the events of a trace may have completed, the first not before `start`: a wait takes at least its parameter, any
other gap at least nothing, and there is no upper bound (R60, R200). -/
def admissible (t : Timing) (start : Nat) : List (Event × Nat) → Bool
  | []             => true
  | (e, at') :: l  => decide (start + e.minTime t ≤ at') && admissible t at' l

/-- The time at which the last event of a timed trace completed. -/
def endTime (start : Nat) : List (Event × Nat) → Nat
  | []            => start
  | (_, at') :: l => endTime at' l

end Sys2Proof.Machine
end

