-- ==== Sys2Proof/Safety.lean ====
section
/-! DEFINITION. What a safe run of LCDFSM is: the enable line's discipline (spec/43_transport.md R173) and the invariant that holds in
every state a run reaches (spec/10_state.md R22 to R26, R33). -/

namespace Sys2Proof.Machine

/-- With EN at level `en`, the pending events change RS and the data pins only while EN is low, and leave EN low at the end
(R173 a, b). -/
def strobeSafe (en : Bool) : List Event → Bool
  | []             => !en
  | .en level :: l => strobeSafe level l
  | .rs _ :: l     => !en && strobeSafe en l
  | .data _ :: l   => !en && strobeSafe en l
  | .wait _ :: l   => strobeSafe en l

/-- The number of events of INITIALIZE that follow its step 3 (R100): 95 less the first three. -/
def eventsAfterStep3 : Nat := 92

/-- The pending events of an INITIALIZE that has not yet performed its step 3: what is left of the power-up wait, `RS(0)` and
`EN(0)`, and then `eventsAfterStep3` disciplined events (R103, R173, R228). -/
def settlesEnable : List Event → Bool
  | .wait .powerUp :: .rs false :: .en false :: l => strobeSafe false l && l.length == eventsAfterStep3
  | .rs false :: .en false :: l                   => strobeSafe false l && l.length == eventsAfterStep3
  | .en false :: l                                => strobeSafe false l && l.length == eventsAfterStep3
  | _                                             => false

/-- Every nibble is strobed by exactly one whole pulse: each `DATA` is followed at once by the six events of `pulseEnable`, and EN
moves nowhere else (R172, R173 b, c). -/
def strobed : List Event → Bool
  | []           => true
  | .rs _ :: l   => strobed l
  | .wait _ :: l => strobed l
  | .data _ :: .en false :: .wait .enSetup :: .en true :: .wait .enPulse :: .en false :: .wait .enPost :: l => strobed l
  | _            => false

/-- The pins and the pending events fit `InitState` (R173): before the first INITIALIZE nothing is promised. -/
def State.strobeInv (s : State) : Prop :=
  match s.initState, s.seq with
  | .uninitialized, _         => True
  | .initializing, .idle      => False
  | .initializing, .running l _ => strobeSafe s.pins.en l = true ∨ settlesEnable l = true
  | .ready, .idle             => s.pins.en = false
  | .ready, .running l _      => strobeSafe s.pins.en l = true

/-- The invariant of every reachable state. -/
structure State.Inv (s : State) : Prop where
  /-- `NumLines` is 1..4 once an INITIALIZE has been accepted (R25). -/
  lines    : s.initState ≠ .uninitialized → 1 ≤ s.numLines.toNat ∧ s.numLines.toNat ≤ 4
  /-- The table is that of some column count (R24, R101). -/
  table    : s.initState ≠ .uninitialized → s.rowOffsetTable = rowOffsets s.rowOffsetTable[2]
  /-- `two_line` follows `NumLines` (R102). -/
  twoLine  : s.initState ≠ .uninitialized → s.functionFlags.twoLine = decide (1 < s.numLines.toNat)
  /-- Before any INITIALIZE every register has its reset value (R33). -/
  atReset  : s.initState = .uninitialized →
    s.functionFlags = ⟨false, false⟩ ∧ s.controlFlags = ⟨false, false, false⟩ ∧ s.entryModeFlags = ⟨false, false⟩ ∧
    s.rowOffsetTable = #v[0x00, 0x00, 0x00, 0x00] ∧ s.numLines = 0 ∧ s.seq = .idle
  /-- A running operation responds OK: errors are raised at acceptance only (R196). -/
  runsOk   : ∀ l st, s.seq = .running l st → st = .ok
  /-- While `rst` is asserted the block is in its reset state and presents no response (R220). -/
  held     : s.rst = true → s.initState = .uninitialized ∧ s.rsp = none
  /-- The enable line's discipline, and `Initializing` only while an operation runs (R26, R173). -/
  strobe   : s.strobeInv

/-- `s` is reached from power-on reset in `n` steps by the machine with the constants `cmd` when the host presents `inputs`. -/
def reachedBy (cmd : Cmd) (inputs : List PortInput) (n : Nat) (s : State) : Prop :=
  core.run n (State.atReset cmd 0 inputs) = .next s

end Sys2Proof.Machine
end

