-- ==== Sys2Proof/Certificates/Slice0/Obligations.lean ====
section
/-! DEFINITION. The statements about LCDFSM for the provers. The event lists of the spec's notation (spec/95_test_vectors.md) are
written out here once, independently of the machine's own definitions. -/

open Sys2Proof Sys2Proof.Machine

namespace Sys2Proof.Spec

/-- `N(x)`: the 7 events of a nibble (spec/95_test_vectors.md, R171, R172). -/
def N (x : Nibble) : List Event :=
  [.data x, .en false, .wait .enSetup, .en true, .wait .enPulse, .en false, .wait .enPost]

/-- `B(rs, v)`: the 15 events of a byte, `v[7:4]` before `v[3:0]` (spec/95_test_vectors.md, R52, R170). -/
def B (rs : Bool) (v : Byte) : List Event := .rs rs :: (N (v.extractLsb' 4 4) ++ N (v.extractLsb' 0 4))

/-- The byte of the function-set register (R30) under the constants `c`. -/
def functionByte (c : Cmd) (f : FunctionFlags) : Byte :=
  c.functionSet ||| c.bus4Bit
    ||| (if f.twoLine = true then c.twoLine else c.oneLine)
    ||| (if f.font5x10 = true then c.font5x10 else c.font5x8)

/-- The byte of the display-control register (R30). -/
def controlByte (c : Cmd) (f : ControlFlags) : Byte :=
  c.displayControl
    ||| (if f.displayOn = true then c.displayOn else 0)
    ||| (if f.cursorOn = true then c.cursorOn else 0)
    ||| (if f.blinkOn = true then c.blinkOn else 0)

/-- The byte of the entry-mode register (R30). -/
def entryByte (c : Cmd) (f : EntryModeFlags) : Byte :=
  c.entryModeSet
    ||| (if f.leftToRight = true then c.entryLeft else 0)
    ||| (if f.autoscroll = true then c.entryShiftIncrement else 0)

/-- The 95 events of INITIALIZE, in the short form of V-INIT-1 (R100). -/
def initTrace (c : Cmd) (functionSetByte : Byte) : List Event :=
  [.wait .powerUp, .rs false, .en false]
    ++ N 0x3 ++ [.wait .init1] ++ N 0x3 ++ [.wait .init2] ++ N 0x3 ++ [.wait .init3] ++ N 0x2
    ++ B false functionSetByte ++ B false (controlByte c ⟨true, false, false⟩)
    ++ B false c.clearDisplay ++ [.wait .homeClear] ++ B false (entryByte c ⟨true, false⟩)

/-- `i`, accepted in `s`, passes its checks: the registers become those of `t` and the events `l` are pending with status OK; when
they have been performed on the pins of `s` in order, the response is OK and the block is idle (R70, R137, R175). -/
def Runs (i : Instr) (s t : State) (l : List Event) : Prop :=
  exec i s = .next { t with seq := .running l .ok } ∧
  operate i s = { t with pins := l.foldl Pins.perform s.pins, seq := .idle, rsp := some .ok }

/-- Every word of opcode `opc` decodes to `i`; until the block is `Ready`, `i` answers NOT_INITIALIZED and changes nothing else
(R138); in `Ready` it writes the registers as `written` says, changes nothing else, performs `events` and responds OK. -/
def GuardedOperation (opc : Byte) (i : Instr) (written : State → State) (events : State → List Event) : Prop :=
  (∀ w, fieldOpc w = opc → decode w = .ok i) ∧
  (∀ s : State, s.initState ≠ .ready → exec i s = .next { s with rsp := some .notInitialized }) ∧
  (∀ s : State, s.initState = .ready → Runs i s (written s) (events s))

/-- The input left for later does not begin with a reset or a step without a request: the host waits with its next request, or has
none. -/
def Waiting (input : List PortInput) : Prop := input = [] ∨ ∃ w rest, input = .request w :: rest

/-- The last value operations set a field to, if any did (R140): `sets` says what one operation sets it to. -/
def lastSet (sets : Instr → Option Bool) (l : List Instr) : Option Bool := l.reverse.findSome? sets

/-- What an operation sets `display_on` to; INITIALIZE with legal `rows` sets its default (R107, R123, R124). -/
def setsDisplay : Instr → Option Bool
  | .display => some true
  | .noDisplay => some false
  | .init _ rows _ => if 1 ≤ rows.toNat ∧ rows.toNat ≤ 4 then some true else none
  | _ => none

/-- What an operation sets `cursor_on` to (R107, R125, R126). -/
def setsCursor : Instr → Option Bool
  | .cursor => some true
  | .noCursor => some false
  | .init _ rows _ => if 1 ≤ rows.toNat ∧ rows.toNat ≤ 4 then some false else none
  | _ => none

/-- What an operation sets `blink_on` to (R107, R127, R128). -/
def setsBlink : Instr → Option Bool
  | .blink => some true
  | .noBlink => some false
  | .init _ rows _ => if 1 ≤ rows.toNat ∧ rows.toNat ≤ 4 then some false else none
  | _ => none

/-- What an operation sets `left_to_right` to (R107, R131, R132). -/
def setsDirection : Instr → Option Bool
  | .leftToRight => some true
  | .rightToLeft => some false
  | .init _ rows _ => if 1 ≤ rows.toNat ∧ rows.toNat ≤ 4 then some true else none
  | _ => none

/-- What an operation sets `autoscroll` to (R107, R133, R134). -/
def setsAutoscroll : Instr → Option Bool
  | .autoscroll => some true
  | .noAutoscroll => some false
  | .init _ rows _ => if 1 ≤ rows.toNat ∧ rows.toNat ≤ 4 then some false else none
  | _ => none

/-- The operation is an INITIALIZE. -/
def isInit : Instr → Bool
  | .init _ _ _ => true
  | _ => false

/-- The operation is one of the six of the display-control register. -/
def isControl : Instr → Bool
  | .display | .noDisplay | .cursor | .noCursor | .blink | .noBlink => true
  | _ => false

/-- The operation is one of the four of the entry-mode register. -/
def isEntry : Instr → Bool
  | .leftToRight | .rightToLeft | .autoscroll | .noAutoscroll => true
  | _ => false

/-- The row "events, EN pulses, RS events, WAITs" of an operation with status OK (R174). -/
def expectedCounts : Instr → Nat × Nat × Nat × Nat
  | .init _ _ _ => (95, 12, 5, 41)
  | .clear | .home => (16, 2, 1, 7)
  | .createChar _ _ => (135, 18, 9, 54)
  | _ => (15, 2, 1, 6)

/-- The four counts of an event list. -/
def counts (l : List Event) : Nat × Nat × Nat × Nat := (l.length, enPulses l, rsEvents l, waitEvents l)

/-- `P3`, one pulse (R230). -/
def p3 (t : Timing) : Nat := t.enSetup + t.enPulse + t.enPost

/-- The column "sum of waits" of an operation with status OK (R230). -/
def expectedDuration (t : Timing) : Instr → Nat
  | .init _ _ _ => t.powerUp + t.init1 + t.init2 + t.init3 + t.homeClear + 12 * p3 t
  | .clear | .home => 2 * p3 t + t.homeClear
  | .createChar _ _ => 18 * p3 t
  | _ => 2 * p3 t

/-- The two offers of a byte (R77). -/
def byteOffers (rs : Bool) (v : Byte) : List (Bool × Nibble) := [(rs, v.extractLsb' 4 4), (rs, v.extractLsb' 0 4)]

/-- The operation passes its checks in `s`: INITIALIZE with legal rows, or any other operation in `Ready` (R190). -/
def Accepted (i : Instr) (s : State) : Prop :=
  (∃ c r f, i = .init c r f ∧ 1 ≤ r.toNat ∧ r.toNat ≤ 4) ∨ (isInit i = false ∧ s.initState = .ready)

end Sys2Proof.Spec

open Sys2Proof.Spec

/-! ### Encoding -/

/-- R71, R72, R75, R79: no bit of an operand is dropped between the encoder and the decoder. -/
def Obligations.DecodeOfEncodeIsIdentity : Prop :=
  ∀ i : Instr, i.wellFormed = true → decode (encode i) = .ok i

/-- R73, R79: what a word decodes to encodes to the word with exactly the ignored bits cleared. -/
def Obligations.EncodeOfDecodeClearsIgnoredBits : Prop :=
  ∀ w i, decode w = .ok i → i.wellFormed = true ∧ encode i = w &&& usedBits (fieldOpc w)

/-- R73: "Two words that differ only in ignored bits are the same operation"; for the machine as well: the accepting steps are
equal. -/
def Obligations.IgnoredBitsHaveNoEffect : Prop :=
  ∀ w w' : RequestWord, fieldOpc w = fieldOpc w' → w &&& usedBits (fieldOpc w) = w' &&& usedBits (fieldOpc w) →
    decode w = decode w' ∧
    ∀ (s : State) (rest : List PortInput), s.seq = .idle →
      step { s with input := .request w :: rest } = step { s with input := .request w' :: rest }

/-- R74: the 237 unassigned opcodes, and only they, are rejected. -/
def Obligations.UnassignedOpcodesAreRejected : Prop :=
  ∀ w : RequestWord,
    (decode w = .error (.illegalOpcode (fieldOpc w)) ↔ fieldOpc w = 0x00 ∨ 0x14 ≤ (fieldOpc w).toNat) ∧
    ((∃ i, decode w = .ok i) ↔ 0x01 ≤ (fieldOpc w).toNat ∧ (fieldOpc w).toNat ≤ 0x13)

/-- Words of spec/95_test_vectors.md decode to the operations they stand for. -/
def Obligations.SampleWordsDecode : Prop :=
  decode 0x01100000000000000102 = .ok (.init 16 2 .dots5x10) ∧
  decode 0x0110FFFFFFFFFFFFFE02 = .ok (.init 16 2 .dots5x8) ∧
  decode 0x04050000000000000001 = .ok (.setCursor 5 1) ∧
  decode 0x11030807060504030201 = .ok (.createChar 3 [1, 2, 3, 4, 5, 6, 7, 8]) ∧
  decode 0x1348FFFFFFFFFFFFFFFF = .ok (.writeByte 0x48) ∧
  decode 0x14000000000000000000 = .error (.illegalOpcode 0x14)

/-! ### The step -/

/-- R70, R175: the step that accepts a request runs the decoded operation, on the state without the request, without the
response of the step before, and with `rst` recorded as low (log 4). -/
def Obligations.AcceptingStepRunsTheDecodedOperation : Prop :=
  ∀ (s : State) w rest i, s.seq = .idle → s.input = .request w :: rest → decode w = .ok i →
    step s = exec i { s with input := rest, rsp := none, rst := false }

/-- R192: an unassigned opcode responds ILLEGAL_OP, in every `InitState`, and no register, pin or event is touched. That the response
comes in the accepting step is the model's reading (log 2), and the record of `rst`, low after this step, is the model's (log 4). -/
def Obligations.IllegalOpcodeOnlyResponds : Prop :=
  ∀ (s : State) w rest, s.seq = .idle → s.input = .request w :: rest →
    (fieldOpc w = 0x00 ∨ 0x14 ≤ (fieldOpc w).toNat) →
    step s = .next { s with input := rest, rsp := some .illegalOp, rst := false }

/-- R29, R61, R70: a running block accepts nothing: a presented request waits, and it has no effect on the running operation. -/
def Obligations.RunningBlockIgnoresTheRequestPort : Prop :=
  ∀ (s : State) l st w rest, s.seq = .running l st →
    ∃ t : State, step { s with input := [] } = .next t ∧
      step { s with input := .request w :: rest } = .next { t with input := .request w :: rest } ∧
      acceptance { s with input := .request w :: rest } = none

/-- R175, R27: the head event is performed on its own pin register and dropped; no other register changes. A step for each event is
the model's reading (log 1), and the record of `rst` is the model's (log 4). -/
def Obligations.SequencerPerformsTheHeadEvent : Prop :=
  ∀ (s : State) e l st, s.seq = .running (e :: l) st → Waiting s.input →
    step s = .next
      { s with
        pins := (match e with
          | .rs level => ⟨level, s.pins.en, s.pins.d⟩
          | .en level => ⟨s.pins.rs, level, s.pins.d⟩
          | .data n   => ⟨s.pins.rs, s.pins.en, n⟩
          | .wait _   => s.pins)
        seq := .running l st
        rsp := none
        rst := false }

/-- R220: an idle block does nothing until the host asks: no register, pin or event is touched. The input list and the record of
`rst`, low after this step, are the model's (log 4). -/
def Obligations.IdleBlockDoesNothing : Prop :=
  ∀ s : State, s.seq = .idle →
    (s.input = [] → step s = .next { s with rsp := none, rst := false }) ∧
    (∀ rest, s.input = .quiet :: rest → step s = .next { s with input := rest, rsp := none, rst := false })

/-- R175: "Every step is enabled": no step ends in a fault or a refusal. -/
def Obligations.EveryStepIsEnabled : Prop :=
  ∀ s : State, ∃ t, step s = .next t

/-- R29, R175: a running operation performs all its events in order and then responds, whatever request waits; INITIALIZE's deferred
write happens then (R105). That the events and the response take a step each is the model's reading (log 1), and so is that the
deferred write is due just when `InitState` is `Initializing` (log 3); the record of `rst` is the model's (log 4). -/
def Obligations.RunningOperationReachesItsResponse : Prop :=
  ∀ (s : State) l st, s.seq = .running l st → Waiting s.input →
    core.run (l.length + 1) s = .next
      { s with
        pins := l.foldl Pins.perform s.pins
        initState := if s.initState = .initializing then .ready else s.initState
        seq := .idle
        rsp := some st
        rst := false }

/-- R175, R59: the small-step machine, given a program of requests, ends in the state of the big-step operations one after
another, and performs exactly their events in acceptance order; an assertion of `rst` is over with the first request (log 4). -/
def Obligations.SmallStepsRefineBigSteps : Prop :=
  ∀ (program : List (RequestWord × Instr)) (s : State), s.seq = .idle → (∀ p ∈ program, decode p.1 = .ok p.2) →
    ∃ n,
      core.run n { s with input := program.map fun p => .request p.1 }
        = .next { operateAll (program.map Prod.snd) s with input := [], rst := s.rst && program.isEmpty } ∧
      (runObs n { s with input := program.map fun p => .request p.1 }).filterMap
          (fun o => match o with | .event e => some e | _ => none)
        = traceAll (program.map Prod.snd) s

/-- R70: exactly one response follows an accepted request, after all of its events. The number of steps, and an error's response in
the accepting step, are the model's reading (log 1, log 2); the record of `rst` is the model's (log 4). -/
def Obligations.OneResponseAfterAllEvents : Prop :=
  ∀ (s : State) w rest i, s.seq = .idle → s.input = .request w :: rest → Waiting rest → decode w = .ok i →
    (∃ st, st ≠ .ok ∧
      exec i { s with input := rest, rsp := none, rst := false } =
        .next { s with input := rest, rsp := some st, rst := false } ∧
      runObs 1 s = [.accepted w, .response st]) ∨
    (∃ l t, exec i { s with input := rest, rsp := none, rst := false } = .next t ∧ t.seq = .running l .ok ∧
      runObs (l.length + 2) s = .accepted w :: (l.map Obs.event ++ [.response .ok]))

/-! ### Reset -/

/-- R33, R220, R221: where `rst` is asserted, from any state, the state after it is the table of R33, with the pins drawn afresh. The
draw and its counter are the model's form of a free value (log 6), and `rst` the model's record of the input's level (log 4). -/
def Obligations.ResetStepLeavesTheResetState : Prop :=
  ∀ (s : State) rest, s.input = .reset :: rest → s.rst = false →
    step s = .next
      { cmd := s.cmd, functionFlags := ⟨false, false⟩, controlFlags := ⟨false, false, false⟩,
        entryModeFlags := ⟨false, false⟩, rowOffsetTable := #v[0x00, 0x00, 0x00, 0x00], numLines := 0,
        initState := .uninitialized, pins := drawnPins (s.resets + 1), seq := .idle, rsp := none, rst := true,
        input := rest, resets := s.resets + 1 }

/-- R33, R220, R28: power-on reset; nothing is said of the pins. The response port is not in the table of R33: its last clause, that
no response is presented, is the model's choice (log 5). -/
def Obligations.PowerOnResetIsTheTable : Prop :=
  State.reset.initState = .uninitialized ∧ State.reset.functionFlags = ⟨false, false⟩ ∧
  State.reset.controlFlags = ⟨false, false, false⟩ ∧ State.reset.entryModeFlags = ⟨false, false⟩ ∧
  State.reset.rowOffsetTable = #v[0x00, 0x00, 0x00, 0x00] ∧ State.reset.numLines = 0 ∧ State.reset.seq = .idle ∧
  State.reset.rw = false ∧ State.reset.reqReady = true ∧ State.reset.rspValid = false

/-- R221: a reset after `k` performed events: those have happened on the pins, the pending ones never do, no response is given, and
the state is the reset state. (No operation runs while `rst` is asserted, R220, so `rst` is low before.) A step for each
event, a cut between two steps and the record of `rst` are the model's (log 1, log 7, log 4). -/
def Obligations.ResetCutsTheRunningOperation : Prop :=
  ∀ (s : State) l st k rest, s.seq = .running l st → s.rst = false → k ≤ l.length →
    s.input = List.replicate k .quiet ++ .reset :: rest →
    (∃ t : State, core.run k s = .next t ∧ t.pins = (l.take k).foldl Pins.perform s.pins ∧ t.seq = .running (l.drop k) st) ∧
    core.run (k + 1) s = .next (State.atReset s.cmd (s.resets + 1) rest) ∧
    runObs (k + 1) s = (l.take k).map Obs.event ++ [.resetMark]

/-! ### Statuses -/

/-- R138, R191: until `Ready`, every operation but INITIALIZE has no effect but its NOT_INITIALIZED response. -/
def Obligations.GuardRefusesUntilReady : Prop :=
  ∀ (i : Instr) (s : State), isInit i = false → s.initState ≠ .ready →
    exec i s = .next { s with rsp := some .notInitialized }

/-- R106, R193: INITIALIZE with `rows` = 0 or `rows` ≥ 5 has no effect but its BAD_OPERAND response, in every state. -/
def Obligations.InitializeRefusesIllegalRows : Prop :=
  ∀ (columns rows : Byte) (fontSize : FontSize) (s : State), (rows = 0 ∨ 5 ≤ rows.toNat) →
    exec (.init columns rows fontSize) s = .next { s with rsp := some .badOperand }

/-- R190, R194: which error status an accepted request has, and why; a request without one runs. That an error is the response of
the accepting step is the model's reading (log 2), and so is that OK never is, the events and the response taking steps of their own
(log 1). -/
def Obligations.EveryStatusHasItsCause : Prop :=
  ∀ (s t : State) w rest, s.seq = .idle → s.input = .request w :: rest → step s = .next t →
    (t.rsp = some .illegalOp ↔ (fieldOpc w = 0x00 ∨ 0x14 ≤ (fieldOpc w).toNat)) ∧
    (t.rsp = some .notInitialized ↔ ∃ i, decode w = .ok i ∧ isInit i = false ∧ s.initState ≠ .ready) ∧
    (t.rsp = some .badOperand ↔ ∃ c r f, decode w = .ok (.init c r f) ∧ (r = 0 ∨ 5 ≤ r.toNat)) ∧
    (t.rsp = none ↔ ∃ i, decode w = .ok i ∧ Accepted i s) ∧
    (t.rsp = none ↔ ∃ l, t.seq = .running l .ok) ∧
    t.rsp ≠ some .ok

/-- R195: an error response changes no register and no pin and adds no event; errors are not sticky: what was responded before has no
effect on a step. That the response comes in the accepting step is the model's reading (log 2), and the record of `rst`, low after
this step, is the model's (log 4). -/
def Obligations.ErrorsChangeNothing : Prop :=
  (∀ (s t : State) w rest, s.seq = .idle → s.input = .request w :: rest → step s = .next t → t.rsp ≠ none →
    t = { s with input := rest, rsp := t.rsp, rst := false } ∧
    ∃ st, t.rsp = some st ∧ runObs 1 s = [.accepted w, .response st]) ∧
  (∀ (s : State) earlier, step { s with rsp := earlier } = step s)

/-! ### The operations -/

/-- R120, R121. -/
def Obligations.ClearAndHomeResults : Prop :=
  GuardedOperation 0x02 .clear id (fun s => B false s.cmd.clearDisplay ++ [.wait .homeClear]) ∧
  GuardedOperation 0x03 .home id (fun s => B false s.cmd.returnHome ++ [.wait .homeClear])

/-- R122: the row is clamped to `min(4, NumLines) - 1`, the sum is modulo 256 and is OR-ed into the command. (`NumLines` is never 0
in `Ready`, R25; the next statement says what the model does there.) -/
def Obligations.SetCursorResult : Prop :=
  (∀ w, fieldOpc w = 0x04 → decode w = .ok (.setCursor (w.extractLsb' 64 8) (w.extractLsb' 0 8))) ∧
  ∀ (col row : Byte) (s : State),
    (s.initState ≠ .ready → exec (.setCursor col row) s = .next { s with rsp := some .notInitialized }) ∧
    (s.initState = .ready → s.numLines ≠ 0 →
      ∃ r : Fin 4, r.val = min row.toNat (min 4 s.numLines.toNat - 1) ∧
        Runs (.setCursor col row) s s (B false (s.cmd.setDdramAddr ||| (col + s.rowOffsetTable[r]))))

/-- The model's choice (log 9), not the spec's: in a `Ready` state with `NumLines` = 0, which no run reaches, SETCURSOR still runs,
with the free row `Config.rowWithoutLines`. -/
def Obligations.SetCursorWithoutLinesStillSends : Prop :=
  ∀ (col row : Byte) (s : State), s.initState = .ready → s.numLines = 0 →
    Runs (.setCursor col row) s s
      (B false (s.cmd.setDdramAddr ||| (col + s.rowOffsetTable[Config.rowWithoutLines row])))

/-- R123 to R128, with R139: each writes its own field and sends the whole register as it is after the write. -/
def Obligations.DisplayControlResults : Prop :=
  GuardedOperation 0x05 .display
    (fun s => { s with controlFlags := ⟨true, s.controlFlags.cursorOn, s.controlFlags.blinkOn⟩ })
    (fun s => B false (controlByte s.cmd ⟨true, s.controlFlags.cursorOn, s.controlFlags.blinkOn⟩)) ∧
  GuardedOperation 0x06 .noDisplay
    (fun s => { s with controlFlags := ⟨false, s.controlFlags.cursorOn, s.controlFlags.blinkOn⟩ })
    (fun s => B false (controlByte s.cmd ⟨false, s.controlFlags.cursorOn, s.controlFlags.blinkOn⟩)) ∧
  GuardedOperation 0x07 .cursor
    (fun s => { s with controlFlags := ⟨s.controlFlags.displayOn, true, s.controlFlags.blinkOn⟩ })
    (fun s => B false (controlByte s.cmd ⟨s.controlFlags.displayOn, true, s.controlFlags.blinkOn⟩)) ∧
  GuardedOperation 0x08 .noCursor
    (fun s => { s with controlFlags := ⟨s.controlFlags.displayOn, false, s.controlFlags.blinkOn⟩ })
    (fun s => B false (controlByte s.cmd ⟨s.controlFlags.displayOn, false, s.controlFlags.blinkOn⟩)) ∧
  GuardedOperation 0x09 .blink
    (fun s => { s with controlFlags := ⟨s.controlFlags.displayOn, s.controlFlags.cursorOn, true⟩ })
    (fun s => B false (controlByte s.cmd ⟨s.controlFlags.displayOn, s.controlFlags.cursorOn, true⟩)) ∧
  GuardedOperation 0x0A .noBlink
    (fun s => { s with controlFlags := ⟨s.controlFlags.displayOn, s.controlFlags.cursorOn, false⟩ })
    (fun s => B false (controlByte s.cmd ⟨s.controlFlags.displayOn, s.controlFlags.cursorOn, false⟩))

/-- R129, R130. -/
def Obligations.ScrollResults : Prop :=
  GuardedOperation 0x0B .scrollDisplayLeft id
    (fun s => B false (s.cmd.cursorShift ||| s.cmd.displayMove ||| s.cmd.moveLeft)) ∧
  GuardedOperation 0x0C .scrollDisplayRight id
    (fun s => B false (s.cmd.cursorShift ||| s.cmd.displayMove ||| s.cmd.moveRight))

/-- R131 to R134. -/
def Obligations.EntryModeResults : Prop :=
  GuardedOperation 0x0D .leftToRight
    (fun s => { s with entryModeFlags := ⟨true, s.entryModeFlags.autoscroll⟩ })
    (fun s => B false (entryByte s.cmd ⟨true, s.entryModeFlags.autoscroll⟩)) ∧
  GuardedOperation 0x0E .rightToLeft
    (fun s => { s with entryModeFlags := ⟨false, s.entryModeFlags.autoscroll⟩ })
    (fun s => B false (entryByte s.cmd ⟨false, s.entryModeFlags.autoscroll⟩)) ∧
  GuardedOperation 0x0F .autoscroll
    (fun s => { s with entryModeFlags := ⟨s.entryModeFlags.leftToRight, true⟩ })
    (fun s => B false (entryByte s.cmd ⟨s.entryModeFlags.leftToRight, true⟩)) ∧
  GuardedOperation 0x10 .noAutoscroll
    (fun s => { s with entryModeFlags := ⟨s.entryModeFlags.leftToRight, false⟩ })
    (fun s => B false (entryByte s.cmd ⟨s.entryModeFlags.leftToRight, false⟩))

/-- R135: the CGRAM address of the masked slot, then the bitmap rows in index order; `slot` 9 behaves as `slot` 1. -/
def Obligations.CreateCharResult : Prop :=
  (∀ w, fieldOpc w = 0x11 → decode w = .ok (.createChar (w.extractLsb' 64 8)
    [w.extractLsb' 0 8, w.extractLsb' 8 8, w.extractLsb' 16 8, w.extractLsb' 24 8,
     w.extractLsb' 32 8, w.extractLsb' 40 8, w.extractLsb' 48 8, w.extractLsb' 56 8])) ∧
  ∀ (slot b0 b1 b2 b3 b4 b5 b6 b7 : Byte) (s : State),
    (s.initState ≠ .ready →
      exec (.createChar slot [b0, b1, b2, b3, b4, b5, b6, b7]) s = .next { s with rsp := some .notInitialized }) ∧
    (s.initState = .ready →
      Runs (.createChar slot [b0, b1, b2, b3, b4, b5, b6, b7]) s s
        (B false (s.cmd.setCgramAddr ||| BitVec.ofNat 8 (slot.toNat % 8 * 8))
          ++ B true b0 ++ B true b1 ++ B true b2 ++ B true b3 ++ B true b4 ++ B true b5 ++ B true b6 ++ B true b7))

/-- R160, R161. -/
def Obligations.CommandAndWriteByteResults : Prop :=
  (∀ w, fieldOpc w = 0x12 → decode w = .ok (.command (w.extractLsb' 64 8))) ∧
  (∀ w, fieldOpc w = 0x13 → decode w = .ok (.writeByte (w.extractLsb' 64 8))) ∧
  ∀ (byte : Byte) (s : State),
    (s.initState ≠ .ready →
      exec (.command byte) s = .next { s with rsp := some .notInitialized } ∧
      exec (.writeByte byte) s = .next { s with rsp := some .notInitialized }) ∧
    (s.initState = .ready →
      Runs (.command byte) s s (B false byte) ∧
      Runs (.writeByte byte) s s (B true byte))

/-- R100 to R103, R107: INITIALIZE with legal `rows`, in every state: the registers it writes, and the 95 events in order. -/
def Obligations.InitializeResult : Prop :=
  (∀ w, fieldOpc w = 0x01 →
    decode w = .ok (.init (w.extractLsb' 64 8) (w.extractLsb' 0 8) (if w.getLsbD 8 = true then .dots5x10 else .dots5x8))) ∧
  ∀ (columns rows : Byte) (fontSize : FontSize) (s : State), 1 ≤ rows.toNat → rows.toNat ≤ 4 →
    exec (.init columns rows fontSize) s = .next
      { s with
        initState := .initializing
        rowOffsetTable := #v[0x00, 0x40, columns, BitVec.ofNat 8 ((0x40 + columns.toNat) % 256)]
        numLines := rows
        functionFlags := ⟨decide (rows.toNat ≠ 1), decide (fontSize = .dots5x10)⟩
        controlFlags := ⟨true, false, false⟩
        entryModeFlags := ⟨true, false⟩
        seq := .running (initTrace s.cmd (functionByte s.cmd ⟨decide (rows.toNat ≠ 1), decide (fontSize = .dots5x10)⟩)) .ok }

/-- R104, R105: INITIALIZE run to its response leaves a state that depends on its operands only: from any idle state, 97 steps
later the block is `Ready` with the registers and the pins here written out. The 97 steps, one for the acceptance, one for each of
the 95 events and one for the response, are the model's reading of R175 (log 1); the record of `rst` is the model's (log 4). -/
def Obligations.InitializeEndsInOneKnownState : Prop :=
  ∀ (s : State) w rest (columns rows : Byte) fontSize, s.seq = .idle → s.input = .request w :: rest → Waiting rest →
    decode w = .ok (.init columns rows fontSize) → 1 ≤ rows.toNat → rows.toNat ≤ 4 →
    core.run 97 s = .next
      { cmd := s.cmd
        functionFlags := ⟨decide (1 < rows.toNat), decide (fontSize = .dots5x10)⟩
        controlFlags := ⟨true, false, false⟩
        entryModeFlags := ⟨true, false⟩
        rowOffsetTable := #v[0x00, 0x40, columns, 0x40 + columns]
        numLines := rows
        initState := .ready
        pins := ⟨false, false, (entryByte s.cmd ⟨true, false⟩).extractLsb' 0 4⟩
        seq := .idle
        rsp := some .ok
        rst := false
        input := rest
        resets := s.resets }

/-- R140: an operation other than INITIALIZE leaves every field that it does not name unchanged; and after any sequence of
operations each flag field equals what the last operation naming it set it to, or its INITIALIZE default if none did. -/
def Obligations.FlagFieldsAreIndependent : Prop :=
  (∀ (i : Instr) (s : State), isInit i = false →
    (operate i s).functionFlags = s.functionFlags ∧ (operate i s).rowOffsetTable = s.rowOffsetTable ∧
    (operate i s).numLines = s.numLines ∧
    (setsDisplay i = none → (operate i s).controlFlags.displayOn = s.controlFlags.displayOn) ∧
    (setsCursor i = none → (operate i s).controlFlags.cursorOn = s.controlFlags.cursorOn) ∧
    (setsBlink i = none → (operate i s).controlFlags.blinkOn = s.controlFlags.blinkOn) ∧
    (setsDirection i = none → (operate i s).entryModeFlags.leftToRight = s.entryModeFlags.leftToRight) ∧
    (setsAutoscroll i = none → (operate i s).entryModeFlags.autoscroll = s.entryModeFlags.autoscroll)) ∧
  ∀ (columns rows : Byte) (fontSize : FontSize) (l : List Instr) (s : State), 1 ≤ rows.toNat → rows.toNat ≤ 4 →
    (operateAll (.init columns rows fontSize :: l) s).controlFlags.displayOn = (lastSet setsDisplay l).getD true ∧
    (operateAll (.init columns rows fontSize :: l) s).controlFlags.cursorOn = (lastSet setsCursor l).getD false ∧
    (operateAll (.init columns rows fontSize :: l) s).controlFlags.blinkOn = (lastSet setsBlink l).getD false ∧
    (operateAll (.init columns rows fontSize :: l) s).entryModeFlags.leftToRight = (lastSet setsDirection l).getD true ∧
    (operateAll (.init columns rows fontSize :: l) s).entryModeFlags.autoscroll = (lastSet setsAutoscroll l).getD false

/-- R34: the access table, as the frame of every operation at acceptance. -/
def Obligations.AccessTableFrames : Prop :=
  ∀ (i : Instr) (s t : State), exec i s = .next t →
    t.cmd = s.cmd ∧ t.pins = s.pins ∧ t.rst = s.rst ∧ t.input = s.input ∧ t.resets = s.resets ∧
    (isInit i = false → t.functionFlags = s.functionFlags ∧ t.rowOffsetTable = s.rowOffsetTable ∧
      t.numLines = s.numLines ∧ t.initState = s.initState) ∧
    (isInit i = false → isControl i = false → t.controlFlags = s.controlFlags) ∧
    (isInit i = false → isEntry i = false → t.entryModeFlags = s.entryModeFlags) ∧
    (i = .display ∨ i = .noDisplay →
      t.controlFlags.cursorOn = s.controlFlags.cursorOn ∧ t.controlFlags.blinkOn = s.controlFlags.blinkOn) ∧
    (i = .cursor ∨ i = .noCursor →
      t.controlFlags.displayOn = s.controlFlags.displayOn ∧ t.controlFlags.blinkOn = s.controlFlags.blinkOn) ∧
    (i = .blink ∨ i = .noBlink →
      t.controlFlags.displayOn = s.controlFlags.displayOn ∧ t.controlFlags.cursorOn = s.controlFlags.cursorOn) ∧
    (i = .leftToRight ∨ i = .rightToLeft → t.entryModeFlags.autoscroll = s.entryModeFlags.autoscroll) ∧
    (i = .autoscroll ∨ i = .noAutoscroll → t.entryModeFlags.leftToRight = s.entryModeFlags.leftToRight) ∧
    (t.rsp ≠ s.rsp → t = { s with rsp := t.rsp })

/-- R35, R227: a raw command leaves the shadow registers, and the next high-level operation sends the shadow as if the raw command
had not been. -/
def Obligations.RawCommandLeavesTheShadows : Prop :=
  ∀ (byte : Byte) (s : State), s.seq = .idle →
    (operate (.command byte) s).functionFlags = s.functionFlags ∧
    (operate (.command byte) s).controlFlags = s.controlFlags ∧
    (operate (.command byte) s).entryModeFlags = s.entryModeFlags ∧
    ∀ i, operationEvents i (operate (.command byte) s) = operationEvents i s

/-- R226, R160: COMMAND with the clear or home byte sends what CLEAR and HOME send, without their wait. -/
def Obligations.RawClearAndHomeDoNotWait : Prop :=
  ∀ s : State, s.initState = .ready →
    operationEvents .clear s = operationEvents (.command s.cmd.clearDisplay) s ++ [.wait .homeClear] ∧
    operationEvents .home s = operationEvents (.command s.cmd.returnHome) s ++ [.wait .homeClear]

/-- R136, R80: WRITETEXT is the WRITEBYTE of each byte before the first terminator: 15 events a byte, no register written. -/
def Obligations.WriteTextIsItsBytesInOrder : Prop :=
  ∀ (text tail : List Byte) (s : State), s.initState = .ready → (∀ c ∈ text, c ≠ 0) →
    expandText (text ++ 0 :: tail) = text.map Instr.writeByte ∧
    expandText text = text.map Instr.writeByte ∧
    traceAll (expandText text) s = text.flatMap (B true) ∧
    (traceAll (expandText text) s).length = 15 * text.length ∧
    operateAll (expandText text) s =
      { s with
        pins := (operateAll (expandText text) s).pins
        seq := (operateAll (expandText text) s).seq
        rsp := (operateAll (expandText text) s).rsp }

/-- R79: the words an assembler makes from a line are canonical words of well-formed operations. -/
def Obligations.AssembledWordsDecode : Prop :=
  ∀ line words, assembleLine line = some words →
    ∃ l, parseLine line = some l ∧ words.map decode = l.map Except.ok ∧ words = l.map encode

/-! ### Pins and trace -/

/-- R52, R53, R77, R170: a byte offers its high nibble, then its low nibble, at the level of RS, whatever the pins were, and leaves
RS at its level, EN low and its low nibble on D7 to D4. That a falling edge of EN from a level high before the byte is no offer is
the model's reading (log 19). -/
def Obligations.ByteOffersHighNibbleFirst : Prop :=
  ∀ (v : Byte) (rs : Bool) (p : Pins) (l : List Event),
    offers p (sendByte v rs ++ l) = byteOffers rs v ++ offers ⟨rs, false, v.extractLsb' 0 4⟩ l ∧
    p.performAll (sendByte v rs) = ⟨rs, false, v.extractLsb' 0 4⟩ ∧
    ∀ s : State, s.pins = p.performAll (sendByte v rs) →
      s.pinD4 = v.getLsbD 0 ∧ s.pinD5 = v.getLsbD 1 ∧ s.pinD6 = v.getLsbD 2 ∧ s.pinD7 = v.getLsbD 3

/-- R100, R103, R107: the twelve offers of INITIALIZE, from pins of any level: the four bare nibbles and those of the four command
bytes, and what the last six are with the default constants (R76). That the falling edge of step 3, where EN was high, is no offer
is the model's reading (log 19; R228 says that it may present a spurious nibble). -/
def Obligations.InitializeOffers : Prop :=
  ∀ (columns rows : Byte) (fontSize : FontSize) (s : State) (p : Pins), 1 ≤ rows.toNat → rows.toNat ≤ 4 →
    offers p (operationEvents (.init columns rows fontSize) s) =
      [(false, 0x3), (false, 0x3), (false, 0x3), (false, 0x2)]
        ++ byteOffers false (functionByte s.cmd ⟨decide (1 < rows.toNat), decide (fontSize = .dots5x10)⟩)
        ++ byteOffers false (controlByte s.cmd ⟨true, false, false⟩)
        ++ byteOffers false s.cmd.clearDisplay
        ++ byteOffers false (entryByte s.cmd ⟨true, false⟩) ∧
    (s.cmd = Cmd.defaults →
      (offers p (operationEvents (.init columns rows fontSize) s)).drop 6 =
        [(false, 0x0), (false, 0xC), (false, 0x0), (false, 0x1), (false, 0x0), (false, 0x6)])

/-- R135: what CREATECHAR offers. A bitmap of other than eight rows, which no word carries, is the model's own case (log 18),
and a falling edge of EN from a level high before is no offer (log 19). -/
def Obligations.CreateCharOffers : Prop :=
  ∀ (slot : Byte) (bitmap : List Byte) (s : State) (p : Pins), s.initState = .ready →
    offers p (operationEvents (.createChar slot bitmap) s) =
      byteOffers false (s.cmd.setCgramAddr ||| ((slot &&& 0x07) <<< 3)) ++ bitmap.flatMap (byteOffers true)

/-- R162: RS has the byte's level from its first event to its last. -/
def Obligations.ModeSelectHoldsThroughoutAByte : Prop :=
  ∀ (v : Byte) (rs : Bool) (p : Pins) (k : Nat), 1 ≤ k →
    (p.performAll ((sendByte v rs).take k)).rs = rs

/-- R174: the table of event and pulse counts. -/
def Obligations.EventCountsAreTheTable : Prop :=
  counts pulseEnable = (6, 1, 0, 3) ∧
  (∀ n, counts (sendNibble n) = (7, 1, 0, 3)) ∧
  (∀ v rs, counts (sendByte v rs) = (15, 2, 1, 6)) ∧
  (∀ (i : Instr) (s : State), i.wellFormed = true → Accepted i s → counts (operationEvents i s) = expectedCounts i) ∧
  (∀ (i : Instr) (s : State), ¬ Accepted i s → s.seq = .idle → counts (operationEvents i s) = (0, 0, 0, 0))

/-- R173 b, c, R172: in every operation's list each nibble is strobed by one whole pulse and EN moves nowhere else, but for step 3
of INITIALIZE. -/
def Obligations.EveryNibbleIsStrobedOnce : Prop :=
  ∀ (i : Instr) (s : State), Accepted i s →
    ∃ head body, operationEvents i s = head ++ body ∧ strobed body = true ∧ enPulses body = dataEvents body ∧
      (if isInit i = true then head = [.wait .powerUp, .rs false, .en false] else head = [])

/-- R230: the sum of the minimum waits of each operation, for every `Timing`. -/
def Obligations.DurationsAreTheTable : Prop :=
  ∀ (t : Timing) (i : Instr) (s : State), i.wellFormed = true → Accepted i s →
    duration t (operationEvents i s) = expectedDuration t i

/-- R176: a waveform holds its vectors for the sum of the waits, shows no vector twice in a row, and ends at the pins the trace
leaves. That the waits on the two sides of a pin write that changes nothing add up is the model's reading (log 15). -/
def Obligations.WaveformKeepsTimeAndShowsChangesOnly : Prop :=
  ∀ (t : Timing) (p : Pins) (l : List Event),
    ((waveform t p l).map Prod.snd).sum = duration t l ∧
    ((waveform t p l).map Prod.fst).IsChain (· ≠ ·) ∧
    ((waveform t p l).map Prod.fst).head? = some p ∧
    ((waveform t p l).map Prod.fst).getLast? = some (p.performAll l)

/-- R200, R229: a run in real time takes at least the sum of its waits, and times that keep larger minimums keep smaller ones. -/
def Obligations.RealTimeIsAtLeastTheWaits : Prop :=
  ∀ (t : Timing) (start : Nat) (l : List (Event × Nat)), admissible t start l = true →
    start + duration t (l.map Prod.fst) ≤ endTime start l ∧
    ∀ t' : Timing, (∀ q, t'.get q ≤ t.get q) → admissible t' start l = true

/-! ### Invariants and whole-machine rules -/

/-- R24, R25, R26, R33, R173: every step keeps the invariant of the reachable states. -/
def Obligations.StepKeepsTheInvariant : Prop :=
  ∀ s t : State, s.Inv → step s = .next t → t.Inv

/-- R33: the invariant holds after every reset, whatever the constants, the pins' draw and what the host presents. -/
def Obligations.ResetMeetsTheInvariant : Prop :=
  State.reset.Inv ∧ ∀ cmd k input, (State.atReset cmd k input).Inv

/-- R173 a, b: in every run from reset, with any constants: once the block is `Ready`, EN is low while it is idle and whenever RS or
the data pins are about to change; the same in an INITIALIZE that has passed its step 3, and its data pins never change before. -/
def Obligations.EnableIsLowWheneverLinesMove : Prop :=
  ∀ cmd inputs n (s : State), reachedBy cmd inputs n s →
    (s.initState = .ready →
      (s.seq = .idle → s.pins.en = false) ∧
      (∀ level l st, s.seq = .running (.rs level :: l) st → s.pins.en = false) ∧
      (∀ x l st, s.seq = .running (.data x :: l) st → s.pins.en = false)) ∧
    (s.initState = .initializing →
      (∀ level l st, s.seq = .running (.rs level :: l) st → (Event.rs level :: l).length ≤ 92 → s.pins.en = false) ∧
      (∀ x l st, s.seq = .running (.data x :: l) st → s.pins.en = false))

/-- R26, R199: `InitState` is changed only by reset, by an accepted INITIALIZE with legal operands, and by the end of the operation
that runs in `Initializing`; that this operation is INITIALIZE is the model's reading (log 3). -/
def Obligations.InitStateChangesOnlyByItsCauses : Prop :=
  ∀ s t : State, step s = .next t →
    t.initState = s.initState ∨
    (t.initState = .uninitialized ∧ s.rst = false ∧ ∃ rest, s.input = .reset :: rest) ∨
    (t.initState = .initializing ∧ s.seq = .idle ∧
      ∃ w rest c r f, s.input = .request w :: rest ∧ decode w = .ok (.init c r f) ∧ 1 ≤ r.toNat ∧ r.toNat ≤ 4) ∨
    (s.initState = .initializing ∧ t.initState = .ready ∧ t.seq = .idle ∧ ∃ st, s.seq = .running [] st ∧ t.rsp = some st)

/-- R26, R191: in every run from reset, a guard never meets `Initializing`: an idle block is `Uninitialized` or `Ready`. -/
def Obligations.IdleBlockIsNeverInitializing : Prop :=
  ∀ cmd inputs n (s : State), reachedBy cmd inputs n s → s.seq = .idle → s.initState ≠ .initializing

/-- R220, D19: "While `rst` is asserted the block accepts no request, performs no event and presents no response"; the pins hold the
draw of the assertion (R33), and the whole assertion shows one reset marker (R221). That consecutive reset inputs are one assertion,
and the record of `rst`, are the model's choice (log 4). -/
def Obligations.HeldResetChangesNothing : Prop :=
  ∀ (k : Nat) (s : State) rest, s.input = List.replicate (k + 1) .reset ++ rest →
    (s.rst = true →
      core.run (k + 1) s = .next { s with input := rest, rsp := none } ∧ runObs (k + 1) s = []) ∧
    (s.rst = false →
      core.run (k + 1) s = .next (State.atReset s.cmd (s.resets + 1) rest) ∧ runObs (k + 1) s = [.resetMark])

/-- R31: the constants are a parameter of the step relation: no step changes them. -/
def Obligations.StepKeepsTheConstants : Prop :=
  ∀ s t : State, step s = .next t → t.cmd = s.cmd

/-- R27, R33, R220: the pins hold their levels but for an event of the running operation, and for the draw where `rst` is asserted
anew (log 6). -/
def Obligations.PinsChangeOnlyByTheirCauses : Prop :=
  ∀ s t : State, step s = .next t →
    t.pins = s.pins ∨
    (∃ e l st, s.seq = .running (e :: l) st ∧ t.seq = .running l st ∧ t.pins = s.pins.perform e) ∨
    (s.rst = false ∧ (∃ rest, s.input = .reset :: rest) ∧ t.resets = s.resets + 1 ∧ t.pins = drawnPins t.resets)
end

