-- ==== Sys2Proof/Laws/Decode.lean ====
section
/-! SUPPORT. The fields of a packed word, and the payloads they are packed from (spec/30_encoding.md R71). -/

namespace Sys2Proof

variable (opc a : Byte) (p : BitVec 64)

@[simp] theorem fieldOpc_packWord : fieldOpc (packWord opc a p) = opc := by
  ext i hi
  simp [fieldOpc, packWord]
  grind

@[simp] theorem fieldA_packWord : fieldA (packWord opc a p) = a := by
  ext i hi
  simp [fieldA, packWord]
  grind

@[simp] theorem fieldB_packWord : fieldB (packWord opc a p) = p.extractLsb' 0 8 := by
  ext i hi
  simp [fieldB, packWord]
  grind

@[simp] theorem fieldBm_packWord {k : Nat} (hk : k < 8) :
    fieldBm (packWord opc a p) k = p.extractLsb' (8 * k) 8 := by
  ext i hi
  simp [fieldBm, packWord]
  grind

@[simp] theorem getElem_packWord {k : Nat} (hk : k < 64) : (packWord opc a p)[k] = p[k] := by
  simp [packWord]
  grind

@[simp] theorem getLsbD_packWord {k : Nat} (hk : k < 64) : (packWord opc a p).getLsbD k = p.getLsbD k := by
  simp [packWord]
  grind

/-- A row prepended to a bitmap is its least significant byte (R71). -/
theorem packBitmap_cons (row : Byte) (rows : List Byte) :
    packBitmap (row :: rows) = (packBitmap rows <<< 8) ||| row.setWidth 64 := rfl

/-- Row 0 of a packed bitmap. -/
theorem packBitmap_low (row : Byte) (rows : List Byte) : (packBitmap (row :: rows)).extractLsb' 0 8 = row := by
  ext i hi
  simp [packBitmap_cons]
  grind

/-- The rows after the first one. -/
theorem packBitmap_next (row : Byte) (rows : List Byte) {k : Nat} (hk : k < 7) :
    (packBitmap (row :: rows)).extractLsb' (8 * (k + 1)) 8 = (packBitmap rows).extractLsb' (8 * k) 8 := by
  ext i hi
  simp [packBitmap_cons]
  grind

end Sys2Proof
end

