-- ==== Sys2Proof/Laws/State.lean ====
section
/-! SUPPORT. One lemma per field of State per named update, true by rfl, so that no proof unfolds a record update. -/

namespace Sys2Proof.Machine

variable (s : State)

/-! ### `started`: Accepting an operation changes the sequencer only (R175) -/

@[simp] theorem State.started_cmd (l : List Event) : (s.started l).cmd = s.cmd := rfl
@[simp] theorem State.started_functionFlags (l : List Event) : (s.started l).functionFlags = s.functionFlags := rfl
@[simp] theorem State.started_controlFlags (l : List Event) : (s.started l).controlFlags = s.controlFlags := rfl
@[simp] theorem State.started_entryModeFlags (l : List Event) : (s.started l).entryModeFlags = s.entryModeFlags := rfl
@[simp] theorem State.started_rowOffsetTable (l : List Event) : (s.started l).rowOffsetTable = s.rowOffsetTable := rfl
@[simp] theorem State.started_numLines (l : List Event) : (s.started l).numLines = s.numLines := rfl
@[simp] theorem State.started_initState (l : List Event) : (s.started l).initState = s.initState := rfl
@[simp] theorem State.started_pins (l : List Event) : (s.started l).pins = s.pins := rfl
@[simp] theorem State.started_seq (l : List Event) : (s.started l).seq = .running l .ok := rfl
@[simp] theorem State.started_rsp (l : List Event) : (s.started l).rsp = s.rsp := rfl
@[simp] theorem State.started_rst (l : List Event) : (s.started l).rst = s.rst := rfl
@[simp] theorem State.started_input (l : List Event) : (s.started l).input = s.input := rfl
@[simp] theorem State.started_resets (l : List Event) : (s.started l).resets = s.resets := rfl

/-! ### `responded`: A response changes the response port only (R195) -/

@[simp] theorem State.responded_cmd (st : Status) : (s.responded st).cmd = s.cmd := rfl
@[simp] theorem State.responded_functionFlags (st : Status) : (s.responded st).functionFlags = s.functionFlags := rfl
@[simp] theorem State.responded_controlFlags (st : Status) : (s.responded st).controlFlags = s.controlFlags := rfl
@[simp] theorem State.responded_entryModeFlags (st : Status) : (s.responded st).entryModeFlags = s.entryModeFlags := rfl
@[simp] theorem State.responded_rowOffsetTable (st : Status) : (s.responded st).rowOffsetTable = s.rowOffsetTable := rfl
@[simp] theorem State.responded_numLines (st : Status) : (s.responded st).numLines = s.numLines := rfl
@[simp] theorem State.responded_initState (st : Status) : (s.responded st).initState = s.initState := rfl
@[simp] theorem State.responded_pins (st : Status) : (s.responded st).pins = s.pins := rfl
@[simp] theorem State.responded_seq (st : Status) : (s.responded st).seq = s.seq := rfl
@[simp] theorem State.responded_rsp (st : Status) : (s.responded st).rsp = some st := rfl
@[simp] theorem State.responded_rst (st : Status) : (s.responded st).rst = s.rst := rfl
@[simp] theorem State.responded_input (st : Status) : (s.responded st).input = s.input := rfl
@[simp] theorem State.responded_resets (st : Status) : (s.responded st).resets = s.resets := rfl

/-! ### `taken`: The beginning of a step -/

@[simp] theorem State.taken_cmd (r : List PortInput) : (s.taken r).cmd = s.cmd := rfl
@[simp] theorem State.taken_functionFlags (r : List PortInput) : (s.taken r).functionFlags = s.functionFlags := rfl
@[simp] theorem State.taken_controlFlags (r : List PortInput) : (s.taken r).controlFlags = s.controlFlags := rfl
@[simp] theorem State.taken_entryModeFlags (r : List PortInput) : (s.taken r).entryModeFlags = s.entryModeFlags := rfl
@[simp] theorem State.taken_rowOffsetTable (r : List PortInput) : (s.taken r).rowOffsetTable = s.rowOffsetTable := rfl
@[simp] theorem State.taken_numLines (r : List PortInput) : (s.taken r).numLines = s.numLines := rfl
@[simp] theorem State.taken_initState (r : List PortInput) : (s.taken r).initState = s.initState := rfl
@[simp] theorem State.taken_pins (r : List PortInput) : (s.taken r).pins = s.pins := rfl
@[simp] theorem State.taken_seq (r : List PortInput) : (s.taken r).seq = s.seq := rfl
@[simp] theorem State.taken_rsp (r : List PortInput) : (s.taken r).rsp = none := rfl
@[simp] theorem State.taken_rst (r : List PortInput) : (s.taken r).rst = false := rfl
@[simp] theorem State.taken_input (r : List PortInput) : (s.taken r).input = r := rfl
@[simp] theorem State.taken_resets (r : List PortInput) : (s.taken r).resets = s.resets := rfl

/-! ### `heldInReset`: A further step with `rst` asserted (R220) -/

@[simp] theorem State.heldInReset_cmd (r : List PortInput) : (s.heldInReset r).cmd = s.cmd := rfl
@[simp] theorem State.heldInReset_functionFlags (r : List PortInput) : (s.heldInReset r).functionFlags = s.functionFlags := rfl
@[simp] theorem State.heldInReset_controlFlags (r : List PortInput) : (s.heldInReset r).controlFlags = s.controlFlags := rfl
@[simp] theorem State.heldInReset_entryModeFlags (r : List PortInput) : (s.heldInReset r).entryModeFlags = s.entryModeFlags := rfl
@[simp] theorem State.heldInReset_rowOffsetTable (r : List PortInput) : (s.heldInReset r).rowOffsetTable = s.rowOffsetTable := rfl
@[simp] theorem State.heldInReset_numLines (r : List PortInput) : (s.heldInReset r).numLines = s.numLines := rfl
@[simp] theorem State.heldInReset_initState (r : List PortInput) : (s.heldInReset r).initState = s.initState := rfl
@[simp] theorem State.heldInReset_pins (r : List PortInput) : (s.heldInReset r).pins = s.pins := rfl
@[simp] theorem State.heldInReset_seq (r : List PortInput) : (s.heldInReset r).seq = s.seq := rfl
@[simp] theorem State.heldInReset_rsp (r : List PortInput) : (s.heldInReset r).rsp = none := rfl
@[simp] theorem State.heldInReset_rst (r : List PortInput) : (s.heldInReset r).rst = s.rst := rfl
@[simp] theorem State.heldInReset_input (r : List PortInput) : (s.heldInReset r).input = r := rfl
@[simp] theorem State.heldInReset_resets (r : List PortInput) : (s.heldInReset r).resets = s.resets := rfl

/-! ### `withControl`: The control register (R22) -/

@[simp] theorem State.withControl_cmd (f : ControlFlags) : (s.withControl f).cmd = s.cmd := rfl
@[simp] theorem State.withControl_functionFlags (f : ControlFlags) : (s.withControl f).functionFlags = s.functionFlags := rfl
@[simp] theorem State.withControl_controlFlags (f : ControlFlags) : (s.withControl f).controlFlags = f := rfl
@[simp] theorem State.withControl_entryModeFlags (f : ControlFlags) : (s.withControl f).entryModeFlags = s.entryModeFlags := rfl
@[simp] theorem State.withControl_rowOffsetTable (f : ControlFlags) : (s.withControl f).rowOffsetTable = s.rowOffsetTable := rfl
@[simp] theorem State.withControl_numLines (f : ControlFlags) : (s.withControl f).numLines = s.numLines := rfl
@[simp] theorem State.withControl_initState (f : ControlFlags) : (s.withControl f).initState = s.initState := rfl
@[simp] theorem State.withControl_pins (f : ControlFlags) : (s.withControl f).pins = s.pins := rfl
@[simp] theorem State.withControl_seq (f : ControlFlags) : (s.withControl f).seq = s.seq := rfl
@[simp] theorem State.withControl_rsp (f : ControlFlags) : (s.withControl f).rsp = s.rsp := rfl
@[simp] theorem State.withControl_rst (f : ControlFlags) : (s.withControl f).rst = s.rst := rfl
@[simp] theorem State.withControl_input (f : ControlFlags) : (s.withControl f).input = s.input := rfl
@[simp] theorem State.withControl_resets (f : ControlFlags) : (s.withControl f).resets = s.resets := rfl

/-! ### `withEntry`: The entry-mode register (R23) -/

@[simp] theorem State.withEntry_cmd (f : EntryModeFlags) : (s.withEntry f).cmd = s.cmd := rfl
@[simp] theorem State.withEntry_functionFlags (f : EntryModeFlags) : (s.withEntry f).functionFlags = s.functionFlags := rfl
@[simp] theorem State.withEntry_controlFlags (f : EntryModeFlags) : (s.withEntry f).controlFlags = s.controlFlags := rfl
@[simp] theorem State.withEntry_entryModeFlags (f : EntryModeFlags) : (s.withEntry f).entryModeFlags = f := rfl
@[simp] theorem State.withEntry_rowOffsetTable (f : EntryModeFlags) : (s.withEntry f).rowOffsetTable = s.rowOffsetTable := rfl
@[simp] theorem State.withEntry_numLines (f : EntryModeFlags) : (s.withEntry f).numLines = s.numLines := rfl
@[simp] theorem State.withEntry_initState (f : EntryModeFlags) : (s.withEntry f).initState = s.initState := rfl
@[simp] theorem State.withEntry_pins (f : EntryModeFlags) : (s.withEntry f).pins = s.pins := rfl
@[simp] theorem State.withEntry_seq (f : EntryModeFlags) : (s.withEntry f).seq = s.seq := rfl
@[simp] theorem State.withEntry_rsp (f : EntryModeFlags) : (s.withEntry f).rsp = s.rsp := rfl
@[simp] theorem State.withEntry_rst (f : EntryModeFlags) : (s.withEntry f).rst = s.rst := rfl
@[simp] theorem State.withEntry_input (f : EntryModeFlags) : (s.withEntry f).input = s.input := rfl
@[simp] theorem State.withEntry_resets (f : EntryModeFlags) : (s.withEntry f).resets = s.resets := rfl

/-! ### `performed`: One event (R175) -/

@[simp] theorem State.performed_cmd (e : Event) (l : List Event) (st : Status) : (s.performed e l st).cmd = s.cmd := rfl
@[simp] theorem State.performed_functionFlags (e : Event) (l : List Event) (st : Status) : (s.performed e l st).functionFlags = s.functionFlags := rfl
@[simp] theorem State.performed_controlFlags (e : Event) (l : List Event) (st : Status) : (s.performed e l st).controlFlags = s.controlFlags := rfl
@[simp] theorem State.performed_entryModeFlags (e : Event) (l : List Event) (st : Status) : (s.performed e l st).entryModeFlags = s.entryModeFlags := rfl
@[simp] theorem State.performed_rowOffsetTable (e : Event) (l : List Event) (st : Status) : (s.performed e l st).rowOffsetTable = s.rowOffsetTable := rfl
@[simp] theorem State.performed_numLines (e : Event) (l : List Event) (st : Status) : (s.performed e l st).numLines = s.numLines := rfl
@[simp] theorem State.performed_initState (e : Event) (l : List Event) (st : Status) : (s.performed e l st).initState = s.initState := rfl
@[simp] theorem State.performed_pins (e : Event) (l : List Event) (st : Status) : (s.performed e l st).pins = s.pins.perform e := rfl
@[simp] theorem State.performed_seq (e : Event) (l : List Event) (st : Status) : (s.performed e l st).seq = .running l st := rfl
@[simp] theorem State.performed_rsp (e : Event) (l : List Event) (st : Status) : (s.performed e l st).rsp = s.rsp := rfl
@[simp] theorem State.performed_rst (e : Event) (l : List Event) (st : Status) : (s.performed e l st).rst = s.rst := rfl
@[simp] theorem State.performed_input (e : Event) (l : List Event) (st : Status) : (s.performed e l st).input = s.input := rfl
@[simp] theorem State.performed_resets (e : Event) (l : List Event) (st : Status) : (s.performed e l st).resets = s.resets := rfl

/-! ### `completed`: The end of an operation (R175) -/

@[simp] theorem State.completed_cmd (st : Status) : (s.completed st).cmd = s.cmd := rfl
@[simp] theorem State.completed_functionFlags (st : Status) : (s.completed st).functionFlags = s.functionFlags := rfl
@[simp] theorem State.completed_controlFlags (st : Status) : (s.completed st).controlFlags = s.controlFlags := rfl
@[simp] theorem State.completed_entryModeFlags (st : Status) : (s.completed st).entryModeFlags = s.entryModeFlags := rfl
@[simp] theorem State.completed_rowOffsetTable (st : Status) : (s.completed st).rowOffsetTable = s.rowOffsetTable := rfl
@[simp] theorem State.completed_numLines (st : Status) : (s.completed st).numLines = s.numLines := rfl
@[simp] theorem State.completed_initState (st : Status) : (s.completed st).initState = s.initState.settled := rfl
@[simp] theorem State.completed_pins (st : Status) : (s.completed st).pins = s.pins := rfl
@[simp] theorem State.completed_seq (st : Status) : (s.completed st).seq = .idle := rfl
@[simp] theorem State.completed_rsp (st : Status) : (s.completed st).rsp = some st := rfl
@[simp] theorem State.completed_rst (st : Status) : (s.completed st).rst = s.rst := rfl
@[simp] theorem State.completed_input (st : Status) : (s.completed st).input = s.input := rfl
@[simp] theorem State.completed_resets (st : Status) : (s.completed st).resets = s.resets := rfl

/-! ### `configured`: INITIALIZE's register writes (R100) -/

@[simp] theorem State.configured_cmd (c r : Byte) (f : FontSize) : (s.configured c r f).cmd = s.cmd := rfl
@[simp] theorem State.configured_functionFlags (c r : Byte) (f : FontSize) : (s.configured c r f).functionFlags = functionFlagsOf r f := rfl
@[simp] theorem State.configured_controlFlags (c r : Byte) (f : FontSize) : (s.configured c r f).controlFlags = controlDefaults := rfl
@[simp] theorem State.configured_entryModeFlags (c r : Byte) (f : FontSize) : (s.configured c r f).entryModeFlags = entryDefaults := rfl
@[simp] theorem State.configured_rowOffsetTable (c r : Byte) (f : FontSize) : (s.configured c r f).rowOffsetTable = rowOffsets c := rfl
@[simp] theorem State.configured_numLines (c r : Byte) (f : FontSize) : (s.configured c r f).numLines = r := rfl
@[simp] theorem State.configured_initState (c r : Byte) (f : FontSize) : (s.configured c r f).initState = .initializing := rfl
@[simp] theorem State.configured_pins (c r : Byte) (f : FontSize) : (s.configured c r f).pins = s.pins := rfl
@[simp] theorem State.configured_seq (c r : Byte) (f : FontSize) : (s.configured c r f).seq = s.seq := rfl
@[simp] theorem State.configured_rsp (c r : Byte) (f : FontSize) : (s.configured c r f).rsp = s.rsp := rfl
@[simp] theorem State.configured_rst (c r : Byte) (f : FontSize) : (s.configured c r f).rst = s.rst := rfl
@[simp] theorem State.configured_input (c r : Byte) (f : FontSize) : (s.configured c r f).input = s.input := rfl
@[simp] theorem State.configured_resets (c r : Byte) (f : FontSize) : (s.configured c r f).resets = s.resets := rfl

/-! ### Reset (R33) -/

@[simp] theorem State.atReset_cmd (c : Cmd) (k : Nat) (r : List PortInput) : (State.atReset c k r).cmd = c := rfl
@[simp] theorem State.atReset_functionFlags (c : Cmd) (k : Nat) (r : List PortInput) : (State.atReset c k r).functionFlags = ⟨false, false⟩ := rfl
@[simp] theorem State.atReset_controlFlags (c : Cmd) (k : Nat) (r : List PortInput) : (State.atReset c k r).controlFlags = ⟨false, false, false⟩ := rfl
@[simp] theorem State.atReset_entryModeFlags (c : Cmd) (k : Nat) (r : List PortInput) : (State.atReset c k r).entryModeFlags = ⟨false, false⟩ := rfl
@[simp] theorem State.atReset_rowOffsetTable (c : Cmd) (k : Nat) (r : List PortInput) : (State.atReset c k r).rowOffsetTable = #v[0x00, 0x00, 0x00, 0x00] := rfl
@[simp] theorem State.atReset_numLines (c : Cmd) (k : Nat) (r : List PortInput) : (State.atReset c k r).numLines = 0 := rfl
@[simp] theorem State.atReset_initState (c : Cmd) (k : Nat) (r : List PortInput) : (State.atReset c k r).initState = .uninitialized := rfl
@[simp] theorem State.atReset_pins (c : Cmd) (k : Nat) (r : List PortInput) : (State.atReset c k r).pins = drawnPins k := rfl
@[simp] theorem State.atReset_seq (c : Cmd) (k : Nat) (r : List PortInput) : (State.atReset c k r).seq = .idle := rfl
@[simp] theorem State.atReset_rsp (c : Cmd) (k : Nat) (r : List PortInput) : (State.atReset c k r).rsp = none := rfl
@[simp] theorem State.atReset_rst (c : Cmd) (k : Nat) (r : List PortInput) : (State.atReset c k r).rst = true := rfl
@[simp] theorem State.atReset_input (c : Cmd) (k : Nat) (r : List PortInput) : (State.atReset c k r).input = r := rfl
@[simp] theorem State.atReset_resets (c : Cmd) (k : Nat) (r : List PortInput) : (State.atReset c k r).resets = k := rfl

end Sys2Proof.Machine
end

