-- ==== Sys2Proof/Laws/Ops.lean ====
section
/-! SUPPORT. One lemma per shared operation that says what it can do, and the inversion lemmas of exec and step. -/

namespace Sys2Proof.Machine

variable {s t u : State} {e : Event} {l m : List Event} {st : Status}

/-! ### Micro-operations -/

@[simp] theorem length_pulseEnable : pulseEnable.length = 6 := rfl

@[simp] theorem length_sendNibble (n : Byte) : (sendNibble n).length = 7 := rfl

@[simp] theorem length_sendByte (v : Byte) (rs : Bool) : (sendByte v rs).length = 15 := rfl

/-- The 15 events of a byte, written out (R170). -/
theorem sendByte_eq (v : Byte) (rs : Bool) :
    sendByte v rs =
      [.rs rs,
       .data ((v >>> 4).setWidth 4), .en false, .wait .enSetup, .en true, .wait .enPulse, .en false, .wait .enPost,
       .data (v.setWidth 4), .en false, .wait .enSetup, .en true, .wait .enPulse, .en false, .wait .enPost] := rfl

/-- The high nibble of a byte is `v[7:4]` (R52). -/
theorem highNibble_eq (v : Byte) : (v >>> 4).setWidth 4 = v.extractLsb' 4 4 := by
  ext i hi
  simp [Nat.lt_of_lt_of_le hi]

/-- The low nibble of a byte is `v[3:0]` (R52). -/
theorem lowNibble_eq (v : Byte) : v.setWidth 4 = v.extractLsb' 0 4 := by
  ext i hi
  simp

/-! ### Events on the pins -/

@[simp] theorem performAll_nil (p : Pins) : p.performAll [] = p := rfl

@[simp] theorem performAll_cons (p : Pins) : p.performAll (e :: l) = (p.perform e).performAll l := rfl

@[simp] theorem performAll_append (p : Pins) : p.performAll (l ++ m) = (p.performAll l).performAll m :=
  List.foldl_append

@[simp] theorem perform_rs (p : Pins) (b : Bool) : p.perform (.rs b) = { p with rs := b } := rfl

@[simp] theorem perform_en (p : Pins) (b : Bool) : p.perform (.en b) = { p with en := b } := rfl

@[simp] theorem perform_data (p : Pins) (n : Nibble) : p.perform (.data n) = { p with d := n } := rfl

@[simp] theorem perform_wait (p : Pins) (w : TimingParam) : p.perform (.wait w) = p := rfl

/-- The pins after a bare nibble (R171). -/
@[simp] theorem performAll_sendNibble (p : Pins) (n : Byte) :
    p.performAll (sendNibble n) = ⟨p.rs, false, n.setWidth 4⟩ := rfl

/-- The pins after a byte (R162, R170). -/
@[simp] theorem performAll_sendByte (p : Pins) (v : Byte) (rs : Bool) :
    p.performAll (sendByte v rs) = ⟨rs, false, v.setWidth 4⟩ := rfl

/-! ### The enable line's discipline -/

/-- Two disciplined lists one after the other are disciplined. -/
theorem strobeSafe_append : ∀ {l : List Event} {en : Bool}, strobeSafe en l = true → strobeSafe false m = true →
    strobeSafe en (l ++ m) = true
  | [], en, h, hm => by cases en <;> simp_all [strobeSafe]
  | .en b :: l, en, h, hm => by
      simp only [List.cons_append, strobeSafe] at h ⊢
      exact strobeSafe_append h hm
  | .rs b :: l, en, h, hm => by
      simp only [List.cons_append, strobeSafe, Bool.and_eq_true] at h ⊢
      exact ⟨h.1, strobeSafe_append h.2 hm⟩
  | .data n :: l, en, h, hm => by
      simp only [List.cons_append, strobeSafe, Bool.and_eq_true] at h ⊢
      exact ⟨h.1, strobeSafe_append h.2 hm⟩
  | .wait w :: l, en, h, hm => by
      simp only [List.cons_append, strobeSafe] at h ⊢
      exact strobeSafe_append h hm

@[simp] theorem strobeSafe_sendNibble (n : Byte) : strobeSafe false (sendNibble n) = true := rfl

@[simp] theorem strobeSafe_sendByte (v : Byte) (rs : Bool) : strobeSafe false (sendByte v rs) = true := rfl

/-! ### Accepting an operation -/

theorem guarded_ready {body : State → Host.Outcome State Fault Refusal} (h : s.initState = .ready) :
    guarded s body = body s := if_pos h

theorem guarded_notReady {body : State → Host.Outcome State Fault Refusal} (h : s.initState ≠ .ready) :
    guarded s body = .next (s.responded .notInitialized) := if_neg h

/-- What a guarded operation can do (R138, R191). -/
theorem guarded_cases (s : State) (body : State → Host.Outcome State Fault Refusal) :
    (s.initState = .ready ∧ guarded s body = body s) ∨
    (s.initState ≠ .ready ∧ guarded s body = .next (s.responded .notInitialized)) := by
  by_cases h : s.initState = .ready
  · exact .inl ⟨h, guarded_ready h⟩
  · exact .inr ⟨h, guarded_notReady h⟩

/-- What INITIALIZE can do (R100, R106). -/
theorem execInit_cases (columns rows : Byte) (fontSize : FontSize) (s : State) :
    (rowsLegal rows = true ∧ execInit columns rows fontSize s =
      .next ((s.configured columns rows fontSize).started (initEvents s.cmd (functionFlagsOf rows fontSize)))) ∨
    (rowsLegal rows = false ∧ execInit columns rows fontSize s = .next (s.responded .badOperand)) := by
  unfold execInit
  cases h : rowsLegal rows
  · exact .inr ⟨rfl, rfl⟩
  · exact .inl ⟨rfl, rfl⟩

/-- The operand check as a range of naturals (R106). -/
theorem rowsLegal_iff (rows : Byte) : rowsLegal rows = true ↔ 1 ≤ rows.toNat ∧ rows.toNat ≤ 4 := by
  simp only [rowsLegal, Bool.and_eq_true, bne_iff_ne, decide_eq_true_eq]
  bv_omega

/-! ### The sequencer -/

theorem advance_idle (h : s.seq = .idle) : advance s = s := by simp [advance, h]

theorem advance_end (h : s.seq = .running [] st) : advance s = s.completed st := by simp [advance, h]

theorem advance_event (h : s.seq = .running (e :: l) st) : advance s = s.performed e l st := by simp [advance, h]

/-- What one step of the sequencer can do (R175). -/
theorem advance_cases (s : State) :
    (s.seq = .idle ∧ advance s = s) ∨
    (∃ st, s.seq = .running [] st ∧ advance s = s.completed st) ∨
    (∃ e l st, s.seq = .running (e :: l) st ∧ advance s = s.performed e l st) := by
  rcases h : s.seq with _ | ⟨_ | ⟨e, l⟩, st⟩
  · exact .inl ⟨rfl, advance_idle h⟩
  · exact .inr (.inl ⟨st, rfl, advance_end h⟩)
  · exact .inr (.inr ⟨e, l, st, rfl, advance_event h⟩)

/-! ### The step -/

theorem step_noInput (h : s.input = []) : step s = .next (advance (s.taken [])) := by simp [step, h]

theorem step_quiet {r : List PortInput} (h : s.input = .quiet :: r) : step s = .next (advance (s.taken r)) := by
  simp [step, h]

/-- `rst` is asserted where it was not: reset is applied (R220). -/
theorem step_reset {r : List PortInput} (h : s.input = .reset :: r) (hr : s.rst = false) :
    step s = .next (State.atReset s.cmd (s.resets + 1) r) := by simp [step, h, takeReset, hr]

/-- `rst` stays asserted: nothing happens (R220). -/
theorem step_held {r : List PortInput} (h : s.input = .reset :: r) (hr : s.rst = true) :
    step s = .next (s.heldInReset r) := by simp [step, h, takeReset, hr]

theorem step_waiting {w : RequestWord} {r : List PortInput} (h : s.input = .request w :: r) (hs : s.seq = .running l st) :
    step s = .next (advance (s.taken (.request w :: r))) := by simp [step, h, hs]

theorem step_accept {w : RequestWord} {r : List PortInput} {i : Instr} (h : s.input = .request w :: r) (hs : s.seq = .idle)
    (hd : decode w = .ok i) : step s = exec i (s.taken r) := by simp [step, h, hs, hd]

theorem step_illegal {w : RequestWord} {r : List PortInput} {x : DecodeError} (h : s.input = .request w :: r)
    (hs : s.seq = .idle) (hd : decode w = .error x) : step s = .next ((s.taken r).responded .illegalOp) := by
  simp [step, h, hs, hd, raiseIllegalOp, raise]

/-- What one step can do, for every state (R70, R175, R220). -/
theorem step_cases (s : State) :
    (∃ r, s.input = .reset :: r ∧ s.rst = false ∧ step s = .next (State.atReset s.cmd (s.resets + 1) r)) ∨
    (∃ r, s.input = .reset :: r ∧ s.rst = true ∧ step s = .next (s.heldInReset r)) ∨
    (∃ w r i, s.input = .request w :: r ∧ s.seq = .idle ∧ decode w = .ok i ∧ step s = exec i (s.taken r)) ∨
    (∃ w r x, s.input = .request w :: r ∧ s.seq = .idle ∧ decode w = .error x ∧
      step s = .next ((s.taken r).responded .illegalOp)) ∨
    (∃ r, step s = .next (advance (s.taken r))) := by
  rcases h : s.input with _ | ⟨w | _ | _, r⟩
  · exact .inr (.inr (.inr (.inr ⟨[], step_noInput h⟩)))
  · rcases hs : s.seq with _ | ⟨l, st⟩
    · rcases hd : decode w with x | i
      · exact .inr (.inr (.inr (.inl ⟨w, r, x, rfl, rfl, hd, step_illegal h hs hd⟩)))
      · exact .inr (.inr (.inl ⟨w, r, i, rfl, rfl, hd, step_accept h hs hd⟩))
    · exact .inr (.inr (.inr (.inr ⟨_, step_waiting h hs⟩)))
  · exact .inr (.inr (.inr (.inr ⟨r, step_quiet h⟩)))
  · cases hr : s.rst
    · exact .inl ⟨r, rfl, rfl, step_reset h hr⟩
    · exact .inr (.inl ⟨r, rfl, rfl, step_held h hr⟩)

end Sys2Proof.Machine
end

