-- ==== Sys2Proof/Laws/Exec.lean ====
section
/-! SUPPORT. The inversion lemma of exec: what any operation can do at acceptance, said once. -/

namespace Sys2Proof.Machine

/-- Write the control register and send it: what happens in `Ready` (R137). -/
theorem updateControl_ready {s : State} (h : s.initState = .ready) (f : ControlFlags → ControlFlags) :
    updateControl f s = .next ((s.withControl (f s.controlFlags)).started
      (command (serControl s.cmd (f s.controlFlags)))) := guarded_ready h

theorem updateControl_notReady {s : State} (h : s.initState ≠ .ready) (f : ControlFlags → ControlFlags) :
    updateControl f s = .next (s.responded .notInitialized) := guarded_notReady h

/-- Write the entry-mode register and send it: what happens in `Ready` (R137). -/
theorem updateEntry_ready {s : State} (h : s.initState = .ready) (f : EntryModeFlags → EntryModeFlags) :
    updateEntry f s = .next ((s.withEntry (f s.entryModeFlags)).started
      (command (serEntry s.cmd (f s.entryModeFlags)))) := guarded_ready h

theorem updateEntry_notReady {s : State} (h : s.initState ≠ .ready) (f : EntryModeFlags → EntryModeFlags) :
    updateEntry f s = .next (s.responded .notInitialized) := guarded_notReady h

/-- The operations that write the control register, and what they write (R123 to R128). -/
def controlWrite : Instr → Option (ControlFlags → ControlFlags)
  | .display   => some fun f => { f with displayOn := true }
  | .noDisplay => some fun f => { f with displayOn := false }
  | .cursor    => some fun f => { f with cursorOn := true }
  | .noCursor  => some fun f => { f with cursorOn := false }
  | .blink     => some fun f => { f with blinkOn := true }
  | .noBlink   => some fun f => { f with blinkOn := false }
  | _          => none

/-- The operations that write the entry-mode register, and what they write (R131 to R134). -/
def entryWrite : Instr → Option (EntryModeFlags → EntryModeFlags)
  | .leftToRight  => some fun f => { f with leftToRight := true }
  | .rightToLeft  => some fun f => { f with leftToRight := false }
  | .autoscroll   => some fun f => { f with autoscroll := true }
  | .noAutoscroll => some fun f => { f with autoscroll := false }
  | _             => none

/-- What a guarded operation writes before its first event. -/
def registersAfter (i : Instr) (s : State) : State :=
  match controlWrite i, entryWrite i with
  | some f, _    => s.withControl (f s.controlFlags)
  | none, some f => s.withEntry (f s.entryModeFlags)
  | none, none   => s

/-- The six operations of the control register are one shared operation (R137). -/
theorem exec_controlWrite {i : Instr} {f : ControlFlags → ControlFlags} (h : controlWrite i = some f) (s : State) :
    exec i s = updateControl f s := by
  cases i <;> first | (obtain rfl := Option.some.inj h; rfl) | cases h

/-- The four operations of the entry-mode register are one shared operation (R137). -/
theorem exec_entryWrite {i : Instr} {f : EntryModeFlags → EntryModeFlags} (h : entryWrite i = some f) (s : State) :
    exec i s = updateEntry f s := by
  cases i <;> first | (obtain rfl := Option.some.inj h; rfl) | cases h

theorem strobeSafe_bitmap (bitmap : List Byte) : strobeSafe false (bitmap.flatMap writeByte) = true := by
  induction bitmap with
  | nil => rfl
  | cons b bs ih => exact strobeSafe_append (strobeSafe_sendByte b true) ih

/-- An operation without a register write is guarded and only sends. -/
theorem exec_sendOnly {i : Instr} (hi : ∀ c r f, i ≠ .init c r f) (hc : controlWrite i = none) (he : entryWrite i = none)
    (s : State) : ∃ l, strobeSafe false l = true ∧ exec i s = guarded s (start l) := by
  cases i with
  | init c r f => exact absurd rfl (hi c r f)
  | display | noDisplay | cursor | noCursor | blink | noBlink => cases hc
  | leftToRight | rightToLeft | autoscroll | noAutoscroll => cases he
  | clear => exact ⟨command s.cmd.clearDisplay ++ [.wait .homeClear], rfl, rfl⟩
  | home => exact ⟨command s.cmd.returnHome ++ [.wait .homeClear], rfl, rfl⟩
  | setCursor col row => exact ⟨command _, strobeSafe_sendByte _ _, rfl⟩
  | scrollDisplayLeft => exact ⟨command _, strobeSafe_sendByte _ _, rfl⟩
  | scrollDisplayRight => exact ⟨command _, strobeSafe_sendByte _ _, rfl⟩
  | createChar slot bitmap =>
    exact ⟨command _ ++ bitmap.flatMap writeByte, strobeSafe_append (strobeSafe_sendByte _ _) (strobeSafe_bitmap bitmap), rfl⟩
  | command byte => exact ⟨command byte, strobeSafe_sendByte _ _, rfl⟩
  | writeByte byte => exact ⟨writeByte byte, strobeSafe_sendByte _ _, rfl⟩

/-- What an operation can do at acceptance: INITIALIZE with legal rows, its refusal, a guard that fails, or a guarded operation
with the register writes of `registersAfter` and an event list that keeps the enable line's discipline. -/
theorem exec_cases (i : Instr) (s : State) :
    (∃ c r f, i = .init c r f ∧ rowsLegal r = true ∧
      exec i s = .next ((s.configured c r f).started (initEvents s.cmd (functionFlagsOf r f)))) ∨
    (∃ c r f, i = .init c r f ∧ rowsLegal r = false ∧ exec i s = .next (s.responded .badOperand)) ∨
    ((∀ c r f, i ≠ .init c r f) ∧ s.initState ≠ .ready ∧ exec i s = .next (s.responded .notInitialized)) ∨
    ((∀ c r f, i ≠ .init c r f) ∧ s.initState = .ready ∧
      ∃ l, strobeSafe false l = true ∧ exec i s = .next ((registersAfter i s).started l)) := by
  by_cases hi : ∃ c r f, i = .init c r f
  · obtain ⟨c, r, f, rfl⟩ := hi
    rcases execInit_cases c r f s with ⟨hr, h⟩ | ⟨hr, h⟩
    · exact .inl ⟨c, r, f, rfl, hr, h⟩
    · exact .inr (.inl ⟨c, r, f, rfl, hr, h⟩)
  have hne : ∀ c r f, i ≠ .init c r f := fun c r f h => hi ⟨c, r, f, h⟩
  by_cases hr : s.initState = .ready
  · refine .inr (.inr (.inr ⟨hne, hr, ?_⟩))
    rcases hc : controlWrite i with _ | f
    · rcases he : entryWrite i with _ | f
      · obtain ⟨l, hl, h⟩ := exec_sendOnly hne hc he s
        exact ⟨l, hl, by rw [h, guarded_ready hr, registersAfter, hc, he]; rfl⟩
      · exact ⟨_, strobeSafe_sendByte _ _, by rw [exec_entryWrite he, updateEntry_ready hr, registersAfter, hc, he]; rfl⟩
    · exact ⟨_, strobeSafe_sendByte _ _, by rw [exec_controlWrite hc, updateControl_ready hr, registersAfter, hc]; rfl⟩
  · refine .inr (.inr (.inl ⟨hne, hr, ?_⟩))
    rcases hc : controlWrite i with _ | f
    · rcases he : entryWrite i with _ | f
      · obtain ⟨l, -, h⟩ := exec_sendOnly hne hc he s
        rw [h, guarded_notReady hr]
      · rw [exec_entryWrite he, updateEntry_notReady hr]
    · rw [exec_controlWrite hc, updateControl_notReady hr]

/-- What an operation does at acceptance does not depend on the port fields: it starts and keeps them, or it only responds. -/
theorem exec_port (i : Instr) (s : State) :
    (∃ t l, exec i s = .next t ∧ t.seq = .running l .ok ∧ t.rsp = s.rsp ∧ t.input = s.input ∧
      ∀ r q b, exec i { s with input := r, rsp := q, rst := b } = .next { t with input := r, rsp := q, rst := b }) ∨
    (∃ st, st ≠ .ok ∧ exec i s = .next (s.responded st) ∧
      ∀ r q b, exec i { s with input := r, rsp := q, rst := b } =
        .next { s with input := r, rsp := some st, rst := b }) := by
  obtain ⟨cmd, ff, cf, ef, tab, n, ini, pins, seq, rsp, rst, inp, k⟩ := s
  cases i with
  | init c r f =>
    cases h : rowsLegal r
    · exact .inr ⟨.badOperand, by decide, by simp [exec, execInit, h, raise], fun _ _ _ => by simp [exec, execInit, h, raise, State.responded]⟩
    · exact .inl ⟨_, _, if_pos h, rfl, rfl, rfl, fun _ _ _ => if_pos h⟩
  | _ =>
    cases ini
    · exact .inr ⟨.notInitialized, by decide, rfl, fun _ _ _ => rfl⟩
    · exact .inr ⟨.notInitialized, by decide, rfl, fun _ _ _ => rfl⟩
    · exact .inl ⟨_, _, rfl, rfl, rfl, rfl, fun _ _ _ => rfl⟩

/-- Acceptance always answers a next state (R175). -/
theorem exec_next (i : Instr) (s : State) : ∃ t, exec i s = .next t := by
  rcases exec_port i s with ⟨t, _, h, -⟩ | ⟨_, -, h, -⟩ <;> exact ⟨_, h⟩

end Sys2Proof.Machine
end

