-- ==== Sys2Proof/Laws/PerInstr.lean ====
section
/-! SUPPORT. One fact per instruction: the opcode field of its canonical word is its opcode of R72 (spec/30_encoding.md R71, R79). -/

namespace Sys2Proof

/-- The opcode field of the canonical word of `i` is the opcode of `i`. -/
def Laws.OpcodeField.Statement (i : Instr) : Prop := fieldOpc (encode i) = i.opcode

theorem Laws.OpcodeField.init (c r : Byte) (f : FontSize) : Laws.OpcodeField.Statement (Instr.init c r f) :=
  fieldOpc_packWord _ _ _

theorem Laws.OpcodeField.clear : Laws.OpcodeField.Statement (Instr.clear) :=
  fieldOpc_packWord _ _ _

theorem Laws.OpcodeField.home : Laws.OpcodeField.Statement (Instr.home) :=
  fieldOpc_packWord _ _ _

theorem Laws.OpcodeField.setCursor (c r : Byte) : Laws.OpcodeField.Statement (Instr.setCursor c r) :=
  fieldOpc_packWord _ _ _

theorem Laws.OpcodeField.display : Laws.OpcodeField.Statement (Instr.display) :=
  fieldOpc_packWord _ _ _

theorem Laws.OpcodeField.noDisplay : Laws.OpcodeField.Statement (Instr.noDisplay) :=
  fieldOpc_packWord _ _ _

theorem Laws.OpcodeField.cursor : Laws.OpcodeField.Statement (Instr.cursor) :=
  fieldOpc_packWord _ _ _

theorem Laws.OpcodeField.noCursor : Laws.OpcodeField.Statement (Instr.noCursor) :=
  fieldOpc_packWord _ _ _

theorem Laws.OpcodeField.blink : Laws.OpcodeField.Statement (Instr.blink) :=
  fieldOpc_packWord _ _ _

theorem Laws.OpcodeField.noBlink : Laws.OpcodeField.Statement (Instr.noBlink) :=
  fieldOpc_packWord _ _ _

theorem Laws.OpcodeField.scrollDisplayLeft : Laws.OpcodeField.Statement (Instr.scrollDisplayLeft) :=
  fieldOpc_packWord _ _ _

theorem Laws.OpcodeField.scrollDisplayRight : Laws.OpcodeField.Statement (Instr.scrollDisplayRight) :=
  fieldOpc_packWord _ _ _

theorem Laws.OpcodeField.leftToRight : Laws.OpcodeField.Statement (Instr.leftToRight) :=
  fieldOpc_packWord _ _ _

theorem Laws.OpcodeField.rightToLeft : Laws.OpcodeField.Statement (Instr.rightToLeft) :=
  fieldOpc_packWord _ _ _

theorem Laws.OpcodeField.autoscroll : Laws.OpcodeField.Statement (Instr.autoscroll) :=
  fieldOpc_packWord _ _ _

theorem Laws.OpcodeField.noAutoscroll : Laws.OpcodeField.Statement (Instr.noAutoscroll) :=
  fieldOpc_packWord _ _ _

theorem Laws.OpcodeField.createChar (n : Byte) (m : List Byte) : Laws.OpcodeField.Statement (Instr.createChar n m) :=
  fieldOpc_packWord _ _ _

theorem Laws.OpcodeField.command (b : Byte) : Laws.OpcodeField.Statement (Instr.command b) :=
  fieldOpc_packWord _ _ _

theorem Laws.OpcodeField.writeByte (b : Byte) : Laws.OpcodeField.Statement (Instr.writeByte b) :=
  fieldOpc_packWord _ _ _

end Sys2Proof
end

