-- ==== Sys2Proof/Laws/Run.lean ====
section
/-! SUPPORT. Running several steps: one lemma per definition of a run, and the step of a running operation. -/

namespace Sys2Proof.Machine

variable {s t : State} {l : List Event} {st : Status}

theorem core_run_zero (s : State) : core.run 0 s = .next s := rfl

/-- One step, then the rest of the run. -/
theorem core_run_succ (n : Nat) (h : step s = .next t) : core.run (n + 1) s = core.run n t := by
  have h' : core.step s = .next t := h
  simp only [Host.Core.run, h']

/-- What `n + 1` steps show (D1). -/
theorem runObs_succ (n : Nat) (h : step s = .next t) : runObs (n + 1) s = observe s ++ runObs n t := by
  simp only [runObs, h]

/-- A running operation is not disturbed by the port unless a reset or a quiet step is next (R29, R61). -/
theorem step_running (hs : s.seq = .running l st)
    (hi : s.input = [] ∨ ∃ w r, s.input = .request w :: r) : step s = .next (advance (s.taken s.input)) := by
  rcases hi with h | ⟨w, r, h⟩
  · rw [h]; exact step_noInput h
  · rw [h]; exact step_waiting h hs

/-- What a step that accepts a request shows at once. -/
theorem observe_accept {w : RequestWord} {r : List PortInput} (hs : s.seq = .idle) (hi : s.input = .request w :: r)
    (ht : step s = .next t) : observe s = .accepted w :: t.rsp.toList.map .response := by
  simp [observe, hi, acceptance, hs, nextEvent, nextResponse, ht]

/-- What a step of a running operation shows. -/
theorem observe_running (hs : s.seq = .running l st) (hr : ∀ r, s.input ≠ .reset :: r) (ht : step s = .next t) :
    observe s = (nextEvent s).toList.map .event ++ t.rsp.toList.map .response := by
  have : acceptance s = none := by unfold acceptance; rw [hs]; split <;> simp_all
  unfold observe
  split
  · exact absurd ‹_› (hr _)
  · simp [this, nextResponse, ht]

end Sys2Proof.Machine
end

