-- ==== Sys2Proof/Tests/Slice0.lean ====
section
/-! SUPPORT. The model's own tests: the well-formedness checks, decoding, the vectors of spec/95_test_vectors.md (named in each
docstring), and for every statement with hypotheses a concrete input that meets them. -/

namespace Sys2Proof.Tests

open Sys2Proof.Machine Sys2Proof.Spec

/-! ### Helpers -/

/-- `RESET` of spec/95_test_vectors.md, with concrete pins, and `rst` released. -/
def fresh : State := { State.reset with pins := ⟨true, true, 0xF⟩, rst := false }

/-- A `Ready` state with INITIALIZE's flags, for a display of `columns` by `rows` characters. -/
def readyOf (rows : Byte) (f : FunctionFlags) (table : Vector Byte 4) : State where
  cmd := .defaults
  functionFlags := f
  controlFlags := ⟨true, false, false⟩
  entryModeFlags := ⟨true, false⟩
  rowOffsetTable := table
  numLines := rows
  initState := .ready
  pins := ⟨false, false, 0x6⟩
  seq := .idle
  rsp := none
  rst := false
  input := []
  resets := 0

/-- `READY16x2` of spec/95_test_vectors.md. -/
def ready16x2 : State := readyOf 2 ⟨true, false⟩ #v[0x00, 0x40, 0x10, 0x50]

/-- The state after `INITIALIZE 20, 4, 5x8`. -/
def ready20x4 : State := readyOf 4 ⟨true, false⟩ #v[0x00, 0x40, 0x14, 0x54]

/-- The state after `INITIALIZE 16, 1, 5x8`. -/
def ready16x1 : State := readyOf 1 ⟨false, false⟩ #v[0x00, 0x40, 0x10, 0x50]

/-- `ready16x2` with other control flags. -/
def withC (d c b : Bool) : State := { ready16x2 with controlFlags := ⟨d, c, b⟩ }

/-- `ready16x2` with other entry-mode flags. -/
def withE (l a : Bool) : State := { ready16x2 with entryModeFlags := ⟨l, a⟩ }

/-- The next state of an outcome. -/
def nextOf (o : Host.Outcome State Fault Refusal) : Option State :=
  match o with
  | .next t => some t
  | _       => none

/-- `s` with one request presented. -/
def asking (s : State) (w : RequestWord) : State := { s with input := [.request w] }

/-- One step of `s` with the word presented at its port. -/
def accept (s : State) (w : RequestWord) : Option State := nextOf (step (asking s w))

/-- `s` running these events. -/
def running (s : State) (l : List Event) : Option State := some { s with seq := .running l .ok }

/-- `s` with an error response. -/
def refused (s : State) (st : Status) : Option State := some { s with rsp := some st }

/-! ### WellFormed refuses ill-formed terms -/

theorem test_wellFormed_bitmap_short : (Instr.createChar 0 [1, 2, 3, 4, 5, 6, 7]).wellFormed = false := by decide
theorem test_wellFormed_bitmap_long : (Instr.createChar 0 [1, 2, 3, 4, 5, 6, 7, 8, 9]).wellFormed = false := by decide
theorem test_wellFormed_bitmap_eight : (Instr.createChar 0xFF [1, 2, 3, 4, 5, 6, 7, 8]).wellFormed = true := by decide
theorem test_timing_minimums : Timing.minimums.wellFormed = true := by decide
theorem test_timing_defaults : Timing.defaults.wellFormed = true := by decide

/-- Each minimum of R6 missed by one nanosecond. -/
theorem test_timing_below_minimum :
    ({ Timing.defaults with powerUp := 39999999 } : Timing).wellFormed = false ∧
    ({ Timing.defaults with init1 := 4099999 } : Timing).wellFormed = false ∧
    ({ Timing.defaults with init2 := 4099999 } : Timing).wellFormed = false ∧
    ({ Timing.defaults with init3 := 99999 } : Timing).wellFormed = false ∧
    ({ Timing.defaults with homeClear := 1999999 } : Timing).wellFormed = false ∧
    ({ Timing.defaults with enPulse := 449 } : Timing).wellFormed = false ∧
    ({ Timing.defaults with enPost := 36999 } : Timing).wellFormed = false := by decide

/-! ### Decoding: words written out from R71 and R72 -/

/-- INITIALIZE: `columns` in W[71:64], `rows` in W[7:0], the font in W[8] (V-INIT-1, V-INIT-9, V-INIT-17). -/
theorem test_decode_initialize :
    decode 0x01100000000000000002 = .ok (.init 16 2 .dots5x8) ∧
    decode 0x01FF0000000000000104 = .ok (.init 0xFF 4 .dots5x10) ∧
    decode 0x01100000000000000302 = .ok (.init 16 2 .dots5x10) := ⟨rfl, rfl, rfl⟩

/-- The operations without operands, in R72's order. -/
theorem test_decode_plain :
    decode 0x02000000000000000000 = .ok .clear ∧ decode 0x03000000000000000000 = .ok .home ∧
    decode 0x05000000000000000000 = .ok .display ∧ decode 0x06000000000000000000 = .ok .noDisplay ∧
    decode 0x07000000000000000000 = .ok .cursor ∧ decode 0x08000000000000000000 = .ok .noCursor ∧
    decode 0x09000000000000000000 = .ok .blink ∧ decode 0x0A000000000000000000 = .ok .noBlink ∧
    decode 0x0B000000000000000000 = .ok .scrollDisplayLeft ∧ decode 0x0C000000000000000000 = .ok .scrollDisplayRight ∧
    decode 0x0D000000000000000000 = .ok .leftToRight ∧ decode 0x0E000000000000000000 = .ok .rightToLeft ∧
    decode 0x0F000000000000000000 = .ok .autoscroll ∧ decode 0x10000000000000000000 = .ok .noAutoscroll :=
  ⟨rfl, rfl, rfl, rfl, rfl, rfl, rfl, rfl, rfl, rfl, rfl, rfl, rfl, rfl⟩

/-- The operations with operands; V-CG-7 shows the byte order of the bitmap. -/
theorem test_decode_operands :
    decode 0x040300000000000000FF = .ok (.setCursor 3 255) ∧
    decode 0x11030807060504030201 = .ok (.createChar 3 [1, 2, 3, 4, 5, 6, 7, 8]) ∧
    decode 0x120F0000000000000000 = .ok (.command 0x0F) ∧
    decode 0x1348FFFFFFFFFFFFFFFF = .ok (.writeByte 0x48) := ⟨rfl, rfl, rfl, rfl⟩

/-- R74: the ends of the two unassigned ranges. -/
theorem test_decode_illegal :
    decode 0x00000000000000000000 = .error (.illegalOpcode 0x00) ∧
    decode 0x14000000000000000000 = .error (.illegalOpcode 0x14) ∧
    decode 0xFFFFFFFFFFFFFFFFFFFF = .error (.illegalOpcode 0xFF) := ⟨rfl, rfl, rfl⟩

/-- R79: canonical words. -/
theorem test_encode :
    encode (.init 16 1 .dots5x10) = 0x01100000000000000101 ∧
    encode (.createChar 1 [0x00, 0x0A, 0x1F, 0x1F, 0x0E, 0x04, 0x00, 0x00]) = 0x11010000040E1F1F0A00 ∧
    encode .noAutoscroll = 0x10000000000000000000 := by decide

/-- The host's numbering: a whole 80-bit word, fetched and run as the next instruction. -/
theorem test_fetch :
    decodeTableWord 80 0x04050000000000000001 = some (.setCursor 5 1) ∧
    decodeTableWord 80 0x14000000000000000000 = none ∧
    nextOf (step (ready16x2.withFetchWord 80 0x04050000000000000001)) = running ready16x2 (B false 0xC5) := by decide

/-! ### INITIALIZE -/

/-- V-INIT-1: the registers at acceptance, and the 95 events. -/
theorem test_initialize :
    accept fresh 0x01100000000000000002 =
      running { ready16x2 with initState := .initializing, pins := fresh.pins } (initTrace .defaults 0x28) := by decide

/-- V-INIT-8, V-INIT-9, V-INIT-10, V-INIT-4: the fourth offset modulo 256; the function-set byte of step 6. -/
theorem test_initialize_operands :
    accept fresh 0x01C00000000000000004 =
      running { readyOf 4 ⟨true, false⟩ #v[0x00, 0x40, 0xC0, 0x00] with initState := .initializing, pins := fresh.pins }
        (initTrace .defaults 0x28) ∧
    accept fresh 0x01FF0000000000000104 =
      running { readyOf 4 ⟨true, true⟩ #v[0x00, 0x40, 0xFF, 0x3F] with initState := .initializing, pins := fresh.pins }
        (initTrace .defaults 0x2C) ∧
    accept fresh 0x01100000000000000101 =
      running { readyOf 1 ⟨false, true⟩ #v[0x00, 0x40, 0x10, 0x50] with initState := .initializing, pins := fresh.pins }
        (initTrace .defaults 0x24) ∧
    accept fresh 0x01100000000000000001 =
      running { readyOf 1 ⟨false, false⟩ #v[0x00, 0x40, 0x10, 0x50] with initState := .initializing, pins := fresh.pins }
        (initTrace .defaults 0x20) := by decide

/-- V-INIT-11, 12, 13, 14, 15. -/
theorem test_initialize_refused :
    accept fresh 0x01100000000000000000 = refused fresh .badOperand ∧
    accept fresh 0x01100000000000000005 = refused fresh .badOperand ∧
    accept fresh 0x011000000000000001FF = refused fresh .badOperand ∧
    accept ready16x2 0x01140000000000000000 = refused ready16x2 .badOperand ∧
    accept ready16x2 0x01140000000000000005 = refused ready16x2 .badOperand := by decide

/-- V-INIT-18: the defaults come back. -/
theorem test_initialize_again :
    accept { ready16x2 with controlFlags := ⟨true, true, true⟩, entryModeFlags := ⟨false, true⟩ } 0x01140000000000000004 =
      running { ready20x4 with initState := .initializing } (initTrace .defaults 0x28) := by decide

/-- R105, R175: the deferred `InitState <- Ready` comes with the response. -/
theorem test_initialize_ends :
    nextOf (step { ready16x2 with initState := .initializing, seq := .running [] .ok }) =
      some { ready16x2 with rsp := some .ok } := by decide

/-! ### The other operations -/

/-- V-MISC-1 to V-MISC-4. -/
theorem test_clear : accept ready16x2 0x02000000000000000000 = running ready16x2 (B false 0x01 ++ [.wait .homeClear]) := by decide
theorem test_home : accept ready16x2 0x03000000000000000000 = running ready16x2 (B false 0x02 ++ [.wait .homeClear]) := by decide
theorem test_scrollDisplayLeft : accept ready16x2 0x0B000000000000000000 = running ready16x2 (B false 0x18) := by decide
theorem test_scrollDisplayRight : accept ready16x2 0x0C000000000000000000 = running ready16x2 (B false 0x1C) := by decide

/-- V-CUR-2, 3, 6, 7, 8, 10: two lines; the clamp, the wrap, the merge with the command bit. -/
theorem test_setCursor_twoLines :
    accept ready16x2 0x04050000000000000001 = running ready16x2 (B false 0xC5) ∧
    accept ready16x2 0x04050000000000000003 = running ready16x2 (B false 0xC5) ∧
    accept ready16x2 0x040000000000000000FF = running ready16x2 (B false 0xC0) ∧
    accept ready16x2 0x04500000000000000001 = running ready16x2 (B false 0x90) ∧
    accept ready16x2 0x04FF0000000000000001 = running ready16x2 (B false 0xBF) ∧
    accept ready16x2 0x047F0000000000000000 = running ready16x2 (B false 0xFF) := by decide

/-- V-CUR-11, 13, 14, 15, 17, 20: four lines, one line, a wrapped table entry. -/
theorem test_setCursor_otherLines :
    accept ready20x4 0x04000000000000000002 = running ready20x4 (B false 0x94) ∧
    accept ready20x4 0x04130000000000000003 = running ready20x4 (B false 0xE7) ∧
    accept ready20x4 0x04030000000000000004 = running ready20x4 (B false 0xD7) ∧
    accept ready20x4 0x040300000000000000FF = running ready20x4 (B false 0xD7) ∧
    accept ready16x1 0x04030000000000000001 = running ready16x1 (B false 0x83) ∧
    accept { ready20x4 with rowOffsetTable := #v[0x00, 0x40, 0xFF, 0x3F] } 0x04010000000000000002 =
      running { ready20x4 with rowOffsetTable := #v[0x00, 0x40, 0xFF, 0x3F] } (B false 0x80) := by decide

/-- S-5 step 4 and V-CTL: cursor and blink survive DISPLAY. -/
theorem test_display :
    accept (withC false true true) 0x05000000000000000000 = running (withC true true true) (B false 0x0F) ∧
    accept (withC false false false) 0x05000000000000000000 = running (withC true false false) (B false 0x0C) := by decide

/-- S-5 step 3 and V-CTL. -/
theorem test_noDisplay :
    accept (withC true true true) 0x06000000000000000000 = running (withC false true true) (B false 0x0B) ∧
    accept (withC true false true) 0x06000000000000000000 = running (withC false false true) (B false 0x09) := by decide

/-- S-5 step 1 and V-CTL. -/
theorem test_cursor :
    accept (withC true false false) 0x07000000000000000000 = running (withC true true false) (B false 0x0E) ∧
    accept (withC false false true) 0x07000000000000000000 = running (withC false true true) (B false 0x0B) := by decide

/-- S-5 step 5 and V-CTL. -/
theorem test_noCursor :
    accept (withC true true true) 0x08000000000000000000 = running (withC true false true) (B false 0x0D) ∧
    accept (withC false true false) 0x08000000000000000000 = running (withC false false false) (B false 0x08) := by decide

/-- S-5 step 2 and V-CTL. -/
theorem test_blink :
    accept (withC true true false) 0x09000000000000000000 = running (withC true true true) (B false 0x0F) ∧
    accept (withC false false false) 0x09000000000000000000 = running (withC false false true) (B false 0x09) := by decide

/-- S-5 step 9 and V-CTL. -/
theorem test_noBlink :
    accept (withC true false true) 0x0A000000000000000000 = running (withC true false false) (B false 0x0C) ∧
    accept (withC false true true) 0x0A000000000000000000 = running (withC false true false) (B false 0x0A) := by decide

/-- V-ENT. -/
theorem test_leftToRight :
    accept (withE false true) 0x0D000000000000000000 = running (withE true true) (B false 0x07) ∧
    accept (withE false false) 0x0D000000000000000000 = running (withE true false) (B false 0x06) := by decide

/-- V-ENT. -/
theorem test_rightToLeft :
    accept (withE true true) 0x0E000000000000000000 = running (withE false true) (B false 0x05) ∧
    accept (withE true false) 0x0E000000000000000000 = running (withE false false) (B false 0x04) := by decide

/-- V-ENT. -/
theorem test_autoscroll :
    accept (withE true false) 0x0F000000000000000000 = running (withE true true) (B false 0x07) ∧
    accept (withE false false) 0x0F000000000000000000 = running (withE false true) (B false 0x05) := by decide

/-- V-ENT. -/
theorem test_noAutoscroll :
    accept (withE true true) 0x10000000000000000000 = running (withE true false) (B false 0x06) ∧
    accept (withE false true) 0x10000000000000000000 = running (withE false false) (B false 0x04) := by decide

/-- V-CG-5: slot 9 is slot 1, and the rows go in index order. -/
theorem test_createChar :
    accept ready16x2 0x11090000040E1F1F0A00 =
      running ready16x2 (B false 0x48 ++ B true 0x00 ++ B true 0x0A ++ B true 0x1F ++ B true 0x1F
        ++ B true 0x0E ++ B true 0x04 ++ B true 0x00 ++ B true 0x00) := by decide

/-- V-CG-6: bits 7 to 5 of a row are sent as they are. -/
theorem test_createChar_wholeRows :
    accept ready16x2 0x11FF02040810204080FF =
      running ready16x2 (B false 0x78 ++ B true 0xFF ++ B true 0x80 ++ B true 0x40 ++ B true 0x20
        ++ B true 0x10 ++ B true 0x08 ++ B true 0x04 ++ B true 0x02) := by decide

/-- V-RAW-1, V-RAW-3: no wait, no shadow. -/
theorem test_command :
    accept ready16x2 0x12010000000000000000 = running ready16x2 (B false 0x01) ∧
    accept ready16x2 0x12380000000000000000 = running ready16x2 (B false 0x38) := by decide

/-- V-RAW-5, V-RAW-8, S-2. -/
theorem test_writeByte :
    accept ready16x2 0x13000000000000000000 = running ready16x2 (B true 0x00) ∧
    accept ready16x2 0x1348FFFFFFFFFFFFFFFF = running ready16x2 (B true 0x48) ∧
    accept ready16x2 0x13A50000000000000000 = running ready16x2
      [.rs true, .data 0xA, .en false, .wait .enSetup, .en true, .wait .enPulse, .en false, .wait .enPost,
       .data 0x5, .en false, .wait .enSetup, .en true, .wait .enPulse, .en false, .wait .enPost] := by decide

/-! ### Statuses -/

/-- `fresh` refuses the request with NOT_INITIALIZED and nothing else. -/
def guards (w : RequestWord) : Prop := accept fresh w = refused fresh .notInitialized

/-- V-ERR: before INITIALIZE every other operation is refused, and changes nothing. -/
theorem test_notInitialized_first :
    guards 0x02410000000000000001 ∧ guards 0x03410000000000000001 ∧
    guards 0x04410000000000000001 ∧ guards 0x05410000000000000001 ∧
    guards 0x06410000000000000001 ∧ guards 0x07410000000000000001 := by
  simp only [guards]
  decide

/-- V-ERR: before INITIALIZE every other operation is refused, and changes nothing. -/
theorem test_notInitialized_second :
    guards 0x08410000000000000001 ∧ guards 0x09410000000000000001 ∧
    guards 0x0A410000000000000001 ∧ guards 0x0B410000000000000001 ∧
    guards 0x0C410000000000000001 ∧ guards 0x0D410000000000000001 := by
  simp only [guards]
  decide

/-- V-ERR: before INITIALIZE every other operation is refused, and changes nothing. -/
theorem test_notInitialized_third :
    guards 0x0E410000000000000001 ∧ guards 0x0F410000000000000001 ∧
    guards 0x10410000000000000001 ∧ guards 0x11410000000000000001 ∧
    guards 0x12410000000000000001 ∧ guards 0x13410000000000000001 := by
  simp only [guards]
  decide

/-- V-ERR-1 to V-ERR-6: decoding comes before the guard. -/
theorem test_illegalOp :
    accept fresh 0x00000000000000000000 = refused fresh .illegalOp ∧
    accept fresh 0x14000000000000000000 = refused fresh .illegalOp ∧
    accept fresh 0xFFFFFFFFFFFFFFFFFFFF = refused fresh .illegalOp ∧
    accept ready16x2 0x00000000000000000000 = refused ready16x2 .illegalOp ∧
    accept ready16x2 0x80000000000000000000 = refused ready16x2 .illegalOp := by decide

/-- R78: the codes of the statuses. -/
theorem test_status_codes :
    [Status.ok, .notInitialized, .illegalOp, .badOperand].map Status.code = [0, 1, 2, 3] := by decide

/-! ### The sequencer, the pins and reset -/

/-- R27, R53: `DATA(0xA)` sets D7 and D5 and clears D6 and D4 (S-2), and nothing else. -/
theorem test_data_event :
    nextOf (step { ready16x2 with seq := .running [.data 0xA, .en true] .ok }) =
      some { ready16x2 with pins := ⟨false, false, 0xA⟩, seq := .running [.en true] .ok } ∧
    (State.pinD7 { ready16x2 with pins := ⟨false, false, 0xA⟩ }, State.pinD6 { ready16x2 with pins := ⟨false, false, 0xA⟩ },
     State.pinD5 { ready16x2 with pins := ⟨false, false, 0xA⟩ }, State.pinD4 { ready16x2 with pins := ⟨false, false, 0xA⟩ })
      = (true, false, true, false) := by decide

/-- R61: a request waits while an operation runs. -/
theorem test_request_waits :
    nextOf (step { ready16x2 with seq := .running [.rs true] .ok, input := [.request 0] }) =
      some { ready16x2 with pins := ⟨true, false, 0x6⟩, seq := .running [] .ok, input := [.request 0] } := by decide

/-- V-RST-1: a reset in the middle; the shadow registers of R33, whatever the pins. -/
theorem test_reset_cuts :
    nextOf (step { ready16x2 with seq := .running (N 0x5) .ok, input := [.reset] }) =
      some { fresh with pins := drawnPins 1, resets := 1, rst := true } := rfl

/-- R220: while `rst` stays asserted nothing happens, and the pins hold their draw; the request after it is then accepted. -/
theorem test_reset_held :
    nextOf (step { fresh with rst := true, input := [.reset, .request 0] }) =
      some { fresh with rst := true, input := [.request 0] } ∧
    observe { fresh with rst := true, input := [.reset, .request 0] } = [] ∧
    nextOf (step { fresh with rst := true, input := [.request 0] }) = some { fresh with rsp := some .illegalOp } := by decide

/-- R7, R31: a machine with other constants sends them. -/
theorem test_other_constants :
    accept { ready16x2 with cmd := { Cmd.defaults with clearDisplay := 0x81, cursorOn := 0x30 } } 0x02000000000000000000 =
      running { ready16x2 with cmd := { Cmd.defaults with clearDisplay := 0x81, cursorOn := 0x30 } }
        (B false 0x81 ++ [.wait .homeClear]) := by decide

/-- S-2: the offers of 0xA5, from the pins of `READY16x2`. -/
theorem test_offers : offers ready16x2.pins (sendByte 0xA5 true) = [(true, 0xA), (true, 0x5)] := by decide

/-- V-NIB-2: bits 7 to 4 of a nibble argument are ignored. -/
theorem test_sendNibble : sendNibble 0xF7 = N 0x7 := by decide

/-- V-INIT-1: the twelve offers. -/
theorem test_offers_initialize :
    offers fresh.pins (initTrace .defaults 0x28) =
      [(false, 0x3), (false, 0x3), (false, 0x3), (false, 0x2), (false, 0x2), (false, 0x8), (false, 0x0), (false, 0xC),
       (false, 0x0), (false, 0x1), (false, 0x0), (false, 0x6)] := by decide

/-- R174: the counts of INITIALIZE. -/
theorem test_counts_initialize : counts (initTrace .defaults 0x28) = (95, 12, 5, 41) := by decide

/-- R230: the two columns of figures, for INITIALIZE and a nibble. -/
theorem test_durations :
    duration .minimums (initTrace .defaults 0x28) = 50749400 ∧ duration .defaults (initTrace .defaults 0x28) = 62374000 ∧
    duration .minimums (sendNibble 0) = 37450 ∧ duration .defaults (sendNibble 0) = 102000 := by decide

/-- R176: consecutive waits add up, and the redundant `EN(0)` of a pulse does not show. -/
theorem test_waveform :
    waveform .minimums ⟨false, false, 0x0⟩ (N 0x3 ++ [.wait .init1]) =
      [(⟨false, false, 0x0⟩, 0), (⟨false, false, 0x3⟩, 0), (⟨false, true, 0x3⟩, 450),
       (⟨false, false, 0x3⟩, 37000 + 4100000)] := by decide

/-- D1, R221: the observation of a refused request, then of a request cut by a reset. -/
theorem test_records :
    records none [.accepted 7, .response .illegalOp, .accepted 9, .event (.rs true), .resetMark] =
      [.operation 7 [] (some .illegalOp), .operation 9 [.rs true] none, .resetMarker] := by decide

/-! ### Text -/

/-- R79: comments, hexadecimal and decimal numbers, the font. -/
theorem test_assemble :
    assembleLine "INITIALIZE 16, 2, 5x8  ; 16 by 2".toList = some [0x01100000000000000002] ∧
    assembleLine "SETCURSOR 0xFF, 1".toList = some [0x04FF0000000000000001] ∧
    assembleLine "NOBLINK".toList = some [0x0A000000000000000000] ∧
    assembleLine "; nothing".toList = some [] ∧
    assembleLine "SETCURSOR 256, 1".toList = none ∧
    assembleLine "CLEAR 1".toList = none := by decide

/-- P1's first two requests, and an empty line. -/
theorem test_assemble_program :
    assembleProgram ["INITIALIZE 16, 2, 5x8".toList, [], "WRITEBYTE 0x48".toList] =
      some [0x01100000000000000002, 0x13480000000000000000] := by decide

/-- V-CG-2: a bitmap of eight numbers. -/
theorem test_assemble_createChar :
    assembleLine "CREATECHAR 1, 0x00, 0x0A, 0x1F, 0x1F, 0x0E, 0x04, 0x00, 0x00".toList = some [0x11010000040E1F1F0A00] := by
  decide

/-- S-3, R80: WRITETEXT, cut at its first terminator; the empty text is no request. -/
theorem test_writeText :
    assembleLine ("WRITETEXT ".toList ++ [quoteChar, 'H', 'I', quoteChar]) =
      some [0x13480000000000000000, 0x13490000000000000000] ∧
    expandText [0x48, 0x00, 0x49] = [.writeByte 0x48] ∧
    assembleLine ("WRITETEXT ".toList ++ [quoteChar, quoteChar]) = some [] := by decide

/-- R80: a `;` inside the quotes is a character. -/
theorem test_writeText_semicolon :
    assembleLine ("WRITETEXT ".toList ++ [quoteChar, ';', quoteChar] ++ " ; c".toList) =
      some [0x133B0000000000000000] := by decide

/-! ### Inputs that meet the hypotheses of the statements

One theorem for every statement of Certificates/Slice0/Obligations.lean with hypotheses, with each clause at the ends of its range.
The results themselves are the tests above. -/

/-- `fresh` in the middle of an INITIALIZE. -/
def midInit : State := { ready16x2 with initState := .initializing, seq := .running (initTrace .defaults 0x28) .ok }

/-- A `Ready` state of no run, where `NumLines` is 0 (log 9). -/
def noLines : State := { ready16x2 with numLines := 0 }

/-- The 8 rows of V-CG-7. -/
def rows8 : List Byte := [1, 2, 3, 4, 5, 6, 7, 8]

theorem test_meets_DecodeOfEncodeIsIdentity :
    (Instr.createChar 0xFF rows8).wellFormed = true ∧ (Instr.init 255 0 .dots5x10).wellFormed = true ∧
    (Instr.writeByte 0xFF).wellFormed = true := by decide

/-- A word with ignored bits set, and one without. -/
theorem test_meets_EncodeOfDecodeClearsIgnoredBits :
    decode 0x1348FFFFFFFFFFFFFFFF = .ok (.writeByte 0x48) ∧ decode 0x0110FFFFFFFFFFFFFE02 = .ok (.init 16 2 .dots5x8) ∧
    decode 0x11FF02040810204080FF = .ok (.createChar 0xFF [0xFF, 0x80, 0x40, 0x20, 0x10, 0x08, 0x04, 0x02]) :=
  ⟨rfl, rfl, rfl⟩

theorem test_meets_IgnoredBitsHaveNoEffect :
    fieldOpc 0x0110FFFFFFFFFFFFFE02 = fieldOpc 0x01100000000000000002 ∧
    (0x0110FFFFFFFFFFFFFE02 : RequestWord) &&& usedBits (fieldOpc 0x0110FFFFFFFFFFFFFE02) =
      0x01100000000000000002 &&& usedBits (fieldOpc 0x0110FFFFFFFFFFFFFE02) ∧
    (0x0110FFFFFFFFFFFFFE02 : RequestWord) ≠ 0x01100000000000000002 ∧ fresh.seq = .idle := by decide

theorem test_meets_AcceptingStepRunsTheDecodedOperation :
    (asking ready16x2 0x02000000000000000000).seq = .idle ∧
    (asking ready16x2 0x02000000000000000000).input = .request 0x02000000000000000000 :: [] ∧
    decode 0x02000000000000000000 = .ok .clear := ⟨rfl, rfl, rfl⟩

/-- Each clause at the ends of its range, in a state that is not `Ready` and in one that is. -/
theorem test_meets_IllegalOpcodeOnlyResponds :
    (asking fresh 0x00000000000000000000).seq = .idle ∧ (asking ready16x2 0xFFFFFFFFFFFFFFFFFFFF).seq = .idle ∧
    fieldOpc 0x00000000000000000000 = 0x00 ∧ 0x14 ≤ (fieldOpc 0x14000000000000000000).toNat ∧
    0x14 ≤ (fieldOpc 0xFFFFFFFFFFFFFFFFFFFF).toNat := by decide

theorem test_meets_RunningBlockIgnoresTheRequestPort : midInit.seq = .running (initTrace .defaults 0x28) .ok := rfl

/-- The four events, with and without a waiting request. -/
theorem test_meets_SequencerPerformsTheHeadEvent :
    (∀ e ∈ [Event.rs true, .en true, .data 0xA, .wait .enPost],
      ({ ready16x2 with seq := .running (e :: N 0x5) .ok } : State).seq = .running (e :: N 0x5) .ok) ∧
    Waiting ready16x2.input ∧ Waiting [.request 0, .reset] :=
  ⟨fun _ _ => rfl, .inl rfl, .inr ⟨_, _, rfl⟩⟩

theorem test_meets_IdleBlockDoesNothing :
    ready16x2.seq = .idle ∧ ready16x2.input = [] ∧ ({ ready16x2 with input := [.quiet] } : State).input = .quiet :: [] := by
  decide

/-- With no event left, and at the start of an INITIALIZE. -/
theorem test_meets_RunningOperationReachesItsResponse :
    ({ ready16x2 with seq := .running [] .ok } : State).seq = .running [] .ok ∧
    midInit.seq = .running (initTrace .defaults 0x28) .ok ∧ Waiting midInit.input := ⟨rfl, rfl, .inl rfl⟩

/-- A program with a refused request first. -/
theorem test_meets_SmallStepsRefineBigSteps :
    fresh.seq = .idle ∧
    ∀ p ∈ [((0x02000000000000000000 : RequestWord), Instr.clear), (0x01100000000000000002, .init 16 2 .dots5x8),
      (0x13480000000000000000, .writeByte 0x48)], decode p.1 = .ok p.2 := by
  refine ⟨rfl, fun p hp => ?_⟩
  simp only [List.mem_cons, List.not_mem_nil, or_false] at hp
  rcases hp with rfl | rfl | rfl <;> rfl

/-- Both clauses: a refused request and one that runs. -/
theorem test_meets_OneResponseAfterAllEvents :
    (asking fresh 0x02000000000000000000).seq = .idle ∧ (asking ready16x2 0x02000000000000000000).seq = .idle ∧
    Waiting [] ∧ Waiting [.request 0] ∧ decode 0x02000000000000000000 = .ok .clear :=
  ⟨rfl, rfl, .inl rfl, .inr ⟨_, _, rfl⟩, rfl⟩

theorem test_meets_ResetStepLeavesTheResetState :
    ({ midInit with input := [.reset, .request 0] } : State).input = .reset :: [.request 0] ∧ midInit.rst = false :=
  ⟨rfl, rfl⟩

/-- `READY16x2` sending 0xA5, with a reset after `k` steps. -/
def cutAfter (k : Nat) : State :=
  { ready16x2 with
    seq := .running (B true 0xA5) .ok
    input := List.replicate k .quiet ++ [.reset] }

/-- V-RST-1: cut before the first event, after the eighth, and after the last. -/
theorem test_meets_ResetCutsTheRunningOperation :
    0 ≤ (B true 0xA5).length ∧ 8 ≤ (B true 0xA5).length ∧ 15 ≤ (B true 0xA5).length ∧
    ∀ k, (cutAfter k).seq = .running (B true 0xA5) .ok ∧ (cutAfter k).rst = false ∧
      (cutAfter k).input = List.replicate k .quiet ++ .reset :: [] :=
  ⟨by decide, by decide, by decide, fun _ => ⟨rfl, rfl, rfl⟩⟩

/-- In both states that are not `Ready`. -/
theorem test_meets_GuardRefusesUntilReady :
    isInit .clear = false ∧ isInit (.writeByte 0) = false ∧ fresh.initState ≠ .ready ∧ midInit.initState ≠ .ready := by decide

/-- The ends of the two refused ranges. -/
theorem test_meets_InitializeRefusesIllegalRows :
    (0 : Byte) = 0 ∧ 5 ≤ (5 : Byte).toNat ∧ 5 ≤ (255 : Byte).toNat := by decide

/-- One accepted request of each cause. -/
theorem test_meets_EveryStatusHasItsCause :
    accept fresh 0x14000000000000000000 = refused fresh .illegalOp ∧
    accept fresh 0x02000000000000000000 = refused fresh .notInitialized ∧
    accept ready16x2 0x01100000000000000005 = refused ready16x2 .badOperand ∧
    accept ready16x2 0x12000000000000000000 = running ready16x2 (B false 0x00) ∧ fresh.seq = .idle := by decide

theorem test_meets_ErrorsChangeNothing :
    (asking fresh 0x02000000000000000000).seq = .idle ∧
    accept fresh 0x02000000000000000000 = refused fresh .notInitialized ∧
    (refused fresh .notInitialized).map State.rsp ≠ some none := by decide

/-- The guarded operations: a state of each kind, and a word of each of the statements. -/
theorem test_meets_guardedOperations :
    fresh.initState ≠ .ready ∧ midInit.initState ≠ .ready ∧ ready16x2.initState = .ready ∧
    fieldOpc 0x02000000000000000000 = 0x02 ∧ fieldOpc 0x03FFFFFFFFFFFFFFFFFF = 0x03 ∧
    fieldOpc 0x05000000000000000000 = 0x05 ∧ fieldOpc 0x0A000000000000000000 = 0x0A ∧
    fieldOpc 0x0B000000000000000000 = 0x0B ∧ fieldOpc 0x0C000000000000000000 = 0x0C ∧
    fieldOpc 0x0D000000000000000000 = 0x0D ∧ fieldOpc 0x10000000000000000000 = 0x10 := by decide

theorem test_meets_guardedOperations_control :
    fieldOpc 0x06000000000000000000 = 0x06 ∧ fieldOpc 0x07000000000000000000 = 0x07 ∧
    fieldOpc 0x08000000000000000000 = 0x08 ∧ fieldOpc 0x09000000000000000000 = 0x09 ∧
    fieldOpc 0x0E000000000000000000 = 0x0E ∧ fieldOpc 0x0F000000000000000000 = 0x0F := by decide

/-- The ends of the range of `NumLines`. -/
theorem test_meets_SetCursorResult :
    fieldOpc 0x040300000000000000FF = 0x04 ∧ fresh.initState ≠ .ready ∧ ready16x1.initState = .ready ∧
    ready16x1.numLines ≠ 0 ∧ ready20x4.initState = .ready ∧ ready20x4.numLines ≠ 0 := by decide

theorem test_meets_SetCursorWithoutLinesStillSends : noLines.initState = .ready ∧ noLines.numLines = 0 := by decide

theorem test_meets_CreateCharResult :
    fieldOpc 0x11090000040E1F1F0A00 = 0x11 ∧ fresh.initState ≠ .ready ∧ ready16x2.initState = .ready := by decide

theorem test_meets_CommandAndWriteByteResults :
    fieldOpc 0x120F0000000000000000 = 0x12 ∧ fieldOpc 0x13480000000000000000 = 0x13 ∧ fresh.initState ≠ .ready ∧
    ready16x2.initState = .ready := by decide

/-- The ends of the legal range of `rows`. -/
theorem test_meets_InitializeResult :
    fieldOpc 0x01100000000000000001 = 0x01 ∧ (1 ≤ (1 : Byte).toNat ∧ (1 : Byte).toNat ≤ 4) ∧
    (1 ≤ (4 : Byte).toNat ∧ (4 : Byte).toNat ≤ 4) := by decide

theorem test_meets_InitializeEndsInOneKnownState :
    (asking fresh 0x01FF0000000000000104).seq = .idle ∧
    (asking fresh 0x01FF0000000000000104).input = .request 0x01FF0000000000000104 :: [] ∧ Waiting [] ∧
    decode 0x01FF0000000000000104 = .ok (.init 0xFF 4 .dots5x10) ∧ 1 ≤ (4 : Byte).toNat ∧ (4 : Byte).toNat ≤ 4 :=
  ⟨rfl, rfl, .inl rfl, rfl, by decide, by decide⟩

/-- The sequence of S-5, and what it leaves. -/
theorem test_meets_FlagFieldsAreIndependent :
    isInit .blink = false ∧ setsDisplay .blink = none ∧ setsCursor .display = none ∧ setsBlink .cursor = none ∧
    setsDirection .autoscroll = none ∧ setsAutoscroll .leftToRight = none ∧ (1 ≤ (2 : Byte).toNat ∧ (2 : Byte).toNat ≤ 4) ∧
    lastSet setsCursor [.cursor, .blink, .noDisplay, .display, .noCursor, .cursor, .cursor, .noCursor, .noBlink] = some false ∧
    lastSet setsDisplay [.cursor, .blink, .noDisplay, .display, .noCursor] = some true ∧
    lastSet setsAutoscroll [.cursor, .blink] = none ∧
    lastSet setsBlink [.blink, .init 16 0 .dots5x8] = some true ∧
    lastSet setsBlink [.blink, .init 16 1 .dots5x8] = some false := by decide

/-- A next state of each form named in the statement. -/
theorem test_meets_AccessTableFrames :
    exec .display ready16x2 = .next { ready16x2 with seq := .running (B false 0x0C) .ok } ∧
    exec .cursor fresh = .next { fresh with rsp := some .notInitialized } ∧
    exec .noBlink ready16x2 = .next { ready16x2 with seq := .running (B false 0x0C) .ok } ∧
    exec .leftToRight ready16x2 = .next { ready16x2 with seq := .running (B false 0x06) .ok } ∧
    exec .noAutoscroll ready16x2 = .next { ready16x2 with seq := .running (B false 0x06) .ok } ∧
    exec .clear ready16x2 = .next { ready16x2 with seq := .running (B false 0x01 ++ [.wait .homeClear]) .ok } ∧
    exec (.init 16 0 .dots5x8) ready16x2 = .next { ready16x2 with rsp := some .badOperand } ∧
    isInit .display = false ∧ isControl .leftToRight = false ∧ isEntry .display = false :=
  ⟨rfl, rfl, rfl, rfl, rfl, rfl, rfl, rfl, rfl, rfl⟩

theorem test_meets_RawCommandLeavesTheShadows : ready16x2.seq = .idle ∧ fresh.seq = .idle := by decide

theorem test_meets_RawClearAndHomeDoNotWait : ready16x2.initState = .ready := by decide

/-- The empty text and S-3's, with text after the terminator. -/
theorem test_meets_WriteTextIsItsBytesInOrder :
    ready16x2.initState = .ready ∧ (∀ c ∈ ([] : List Byte), c ≠ 0) ∧ (∀ c ∈ ([0x48, 0x49] : List Byte), c ≠ 0) ∧
    expandText ([0x48, 0x49] ++ 0 :: [0x50]) = [.writeByte 0x48, .writeByte 0x49] := by decide

theorem test_meets_AssembledWordsDecode :
    assembleLine "SETCURSOR 5, 1".toList = some [0x04050000000000000001] ∧ assembleLine [] = some [] := by decide

theorem test_meets_ByteOffersHighNibbleFirst :
    ({ ready16x2 with pins := ready16x2.pins.performAll (sendByte 0xA5 true) } : State).pins =
      ready16x2.pins.performAll (sendByte 0xA5 true) := rfl

theorem test_meets_InitializeOffers :
    ready16x2.cmd = .defaults ∧ (1 ≤ (1 : Byte).toNat ∧ (1 : Byte).toNat ≤ 4) ∧ (1 ≤ (4 : Byte).toNat ∧ (4 : Byte).toNat ≤ 4) := by decide

theorem test_meets_CreateCharOffers : ready16x2.initState = .ready := by decide

/-- The first event and the last. -/
theorem test_meets_ModeSelectHoldsThroughoutAByte :
    1 ≤ 1 ∧ ((fresh.pins.performAll ((sendByte 0xA5 false).take 1)).rs, (fresh.pins.performAll ((sendByte 0xA5 false).take 15)).rs)
      = (false, false) := by decide

/-- Accepted in both ways, and not accepted for both reasons. -/
theorem test_meets_EventCountsAreTheTable :
    (Instr.createChar 0 rows8).wellFormed = true ∧ Accepted (.createChar 0 rows8) ready16x2 ∧
    Accepted (.init 16 1 .dots5x8) fresh ∧ Accepted (.init 16 4 .dots5x8) fresh ∧
    ¬ Accepted .clear fresh ∧ ¬ Accepted (.init 16 0 .dots5x8) ready16x2 ∧ ¬ Accepted (.init 16 5 .dots5x8) fresh ∧
    fresh.seq = .idle ∧ ready16x2.seq = .idle := by
  refine ⟨rfl, .inr ⟨rfl, rfl⟩, .inl ⟨16, 1, .dots5x8, rfl, by decide, by decide⟩,
    .inl ⟨16, 4, .dots5x8, rfl, by decide, by decide⟩, ?_, ?_, ?_, rfl, rfl⟩
  · rintro (⟨_, _, _, h, _⟩ | ⟨_, h⟩) <;> cases h
  · rintro (⟨_, _, _, h, h1, _⟩ | ⟨h, _⟩) <;> cases h
    exact absurd h1 (by decide)
  · rintro (⟨_, _, _, h, _, h2⟩ | ⟨h, _⟩) <;> cases h
    exact absurd h2 (by decide)

theorem test_meets_EveryNibbleIsStrobedOnce :
    Accepted .home ready16x2 ∧ Accepted (.init 16 2 .dots5x8) ready16x2 :=
  ⟨.inr ⟨rfl, rfl⟩, .inl ⟨16, 2, .dots5x8, rfl, by decide, by decide⟩⟩

theorem test_meets_DurationsAreTheTable :
    (Instr.createChar 0 rows8).wellFormed = true ∧ Accepted (.createChar 0 rows8) ready16x2 ∧
    Accepted (.init 16 2 .dots5x8) fresh :=
  ⟨rfl, .inr ⟨rfl, rfl⟩, .inl ⟨16, 2, .dots5x8, rfl, by decide, by decide⟩⟩

/-- Times exactly at the minimums, and the two records of R6. -/
theorem test_meets_RealTimeIsAtLeastTheWaits :
    admissible .minimums 10 [(.en true, 10), (.wait .enPulse, 460), (.en false, 460)] = true ∧
    admissible .minimums 10 [(.wait .enPulse, 459)] = false ∧
    ∀ q, Timing.minimums.get q ≤ Timing.defaults.get q := by
  refine ⟨by decide, by decide, fun q => ?_⟩
  cases q <;> decide

/-- The invariant in an uninitialised state and in `READY16x2`, both of which step. -/
theorem test_meets_StepKeepsTheInvariant :
    fresh.Inv ∧ ready16x2.Inv ∧ step fresh = .next fresh ∧ step ready16x2 = .next ready16x2 := by
  refine ⟨⟨fun h => absurd rfl h, fun h => absurd rfl h, fun h => absurd rfl h, fun _ => ⟨rfl, rfl, rfl, rfl, rfl, rfl⟩,
      fun _ _ h => ?_, fun h => ?_, trivial⟩,
    ⟨fun _ => by decide, fun _ => rfl, fun _ => rfl, fun h => ?_, fun _ _ h => ?_, fun h => ?_, rfl⟩, rfl, rfl⟩ <;> cases h

/-- After `INITIALIZE 16, 2, 5x8` the block is idle in `Ready`. -/
theorem test_meets_EnableIsLowWheneverLinesMove_idle :
    ∃ s, reachedBy .defaults [.request 0x01100000000000000002] 97 s ∧ s.initState = .ready ∧ s.seq = .idle := ⟨_, rfl, rfl, rfl⟩

/-- One step later a WRITEBYTE is at its `RS` event. -/
theorem test_meets_EnableIsLowWheneverLinesMove_rs :
    ∃ s level l st, reachedBy .defaults [.request 0x01100000000000000002, .request 0x13480000000000000000] 98 s ∧
      s.initState = .ready ∧ s.seq = .running (.rs level :: l) st := ⟨_, _, _, _, rfl, rfl, rfl⟩

/-- And then at its first `DATA` event. -/
theorem test_meets_EnableIsLowWheneverLinesMove_data :
    ∃ s x l st, reachedBy .defaults [.request 0x01100000000000000002, .request 0x13480000000000000000] 99 s ∧
      s.initState = .ready ∧ s.seq = .running (.data x :: l) st := ⟨_, _, _, _, rfl, rfl, rfl⟩

/-- During an INITIALIZE: its first nibble, and the first RS event after its step 3. -/
theorem test_meets_EnableIsLowWheneverLinesMove_initializing :
    (∃ s x l st, reachedBy .defaults [.request 0x01100000000000000002] 4 s ∧
      s.initState = .initializing ∧ s.seq = .running (.data x :: l) st) ∧
    (∃ s level l st, reachedBy .defaults [.request 0x01100000000000000002] 35 s ∧
      s.initState = .initializing ∧ s.seq = .running (.rs level :: l) st ∧ (Event.rs level :: l).length ≤ 92) :=
  ⟨⟨_, _, _, _, rfl, rfl, rfl⟩, ⟨_, _, _, _, rfl, rfl, rfl, by decide⟩⟩

/-- A next state of each of the four causes. -/
theorem test_meets_InitStateChangesOnlyByItsCauses :
    step ready16x2 = .next ready16x2 ∧
    step { ready16x2 with input := [.reset] } = .next (State.atReset .defaults 1 []) ∧
    (accept fresh 0x01100000000000000002).map State.initState = some .initializing ∧
    nextOf (step { midInit with seq := .running [] .ok }) = some { ready16x2 with rsp := some .ok } :=
  ⟨rfl, rfl, by decide, by decide⟩

/-- An assertion of three steps, from a running state, and one that goes on. -/
theorem test_meets_HeldResetChangesNothing :
    ({ midInit with input := [.reset, .reset, .reset] } : State).input = List.replicate (2 + 1) .reset ++ [] ∧
    midInit.rst = false ∧
    ({ fresh with rst := true, input := [.reset, .request 0] } : State).input =
      List.replicate (0 + 1) .reset ++ [.request 0] ∧ ({ fresh with rst := true } : State).rst = true := ⟨rfl, rfl, rfl, rfl⟩

theorem test_meets_StepKeepsTheConstants : step ready16x2 = .next ready16x2 := rfl

/-- A next state of each of the three causes. -/
theorem test_meets_PinsChangeOnlyByTheirCauses :
    step ready16x2 = .next ready16x2 ∧
    nextOf (step { ready16x2 with seq := .running [.rs true] .ok }) =
      some { ready16x2 with seq := .running [] .ok, pins := ⟨true, false, 0x6⟩ } ∧
    step { ready16x2 with input := [.reset] } = .next (State.atReset .defaults 1 []) := ⟨rfl, by decide, rfl⟩

/-- At reset, and after the first INITIALIZE. -/
theorem test_meets_IdleBlockIsNeverInitializing :
    reachedBy .defaults [] 0 State.reset ∧ State.reset.seq = .idle ∧
    ∃ s, reachedBy .defaults [.request 0x01100000000000000002] 97 s ∧ s.seq = .idle := ⟨rfl, rfl, _, rfl, rfl⟩

end Sys2Proof.Tests
end

namespace Sys2Proof.Machine

/-! ### The command constants are a parameter of the step relation (R31) -/

/-- The register writes of a guarded operation reach at most one flag register (R137). -/
@[simp] theorem registersAfter_cmd (i : Instr) (s : State) : (registersAfter i s).cmd = s.cmd := by
  unfold registersAfter
  split
  · exact State.withControl_cmd ..
  · exact State.withEntry_cmd ..
  · rfl

@[simp] theorem advance_cmd (s : State) : (advance s).cmd = s.cmd := by
  rcases advance_cases s with ⟨-, h⟩ | ⟨st, -, h⟩ | ⟨e, l, st, -, h⟩ <;> simp [h]

/-- Acceptance keeps the constants, whether the operation starts or is refused (R31, R195). -/
theorem exec_keeps_cmd {i : Instr} {s t : State} (h : exec i s = .next t) : t.cmd = s.cmd := by
  rcases exec_cases i s with
    ⟨c, r, f, -, -, hx⟩ | ⟨c, r, f, -, -, hx⟩ | ⟨-, -, hx⟩ | ⟨-, -, l, -, hx⟩ <;>
  · obtain rfl := Host.Outcome.next.inj (hx.symm.trans h)
    simp

/-- Settles O53, by the cases of a step: a reset is given the constants of the state it is applied to, acceptance and the
sequencer keep them. -/
theorem stepKeepsTheConstants : Obligations.StepKeepsTheConstants := by
  intro s t h
  rcases step_cases s with
    ⟨r, -, -, hx⟩ | ⟨r, -, -, hx⟩ | ⟨w, r, i, -, -, -, hx⟩ | ⟨w, r, x, -, -, -, hx⟩ | ⟨r, hx⟩ <;>
    rw [hx] at h
  · obtain rfl := Host.Outcome.next.inj h
    exact State.atReset_cmd ..
  · obtain rfl := Host.Outcome.next.inj h
    exact State.heldInReset_cmd ..
  · exact (exec_keeps_cmd h).trans (State.taken_cmd ..)
  · obtain rfl := Host.Outcome.next.inj h
    exact (State.responded_cmd ..).trans (State.taken_cmd ..)
  · obtain rfl := Host.Outcome.next.inj h
    exact (advance_cmd _).trans (State.taken_cmd ..)

end Sys2Proof.Machine

namespace Sys2Proof.Machine

/-! ### The invariant of the reachable states: what each shared operation keeps (R24 to R26, R33, R173) -/

/-- The register writes of a guarded operation, for every operation at once (R137). -/
theorem registersAfter_eq (i : Instr) (s : State) :
    registersAfter i s =
      { s with
        controlFlags := (controlWrite i).getD id s.controlFlags
        entryModeFlags := (entryWrite i).getD id s.entryModeFlags } := by
  cases i <;> rfl

@[simp] theorem registersAfter_functionFlags (i : Instr) (s : State) : (registersAfter i s).functionFlags = s.functionFlags := by
  rw [registersAfter_eq]

@[simp] theorem registersAfter_rowOffsetTable (i : Instr) (s : State) : (registersAfter i s).rowOffsetTable = s.rowOffsetTable := by
  rw [registersAfter_eq]

@[simp] theorem registersAfter_numLines (i : Instr) (s : State) : (registersAfter i s).numLines = s.numLines := by
  rw [registersAfter_eq]

@[simp] theorem registersAfter_initState (i : Instr) (s : State) : (registersAfter i s).initState = s.initState := by
  rw [registersAfter_eq]

@[simp] theorem registersAfter_pins (i : Instr) (s : State) : (registersAfter i s).pins = s.pins := by
  rw [registersAfter_eq]

@[simp] theorem registersAfter_rsp (i : Instr) (s : State) : (registersAfter i s).rsp = s.rsp := by
  rw [registersAfter_eq]

@[simp] theorem registersAfter_rst (i : Instr) (s : State) : (registersAfter i s).rst = s.rst := by
  rw [registersAfter_eq]

@[simp] theorem registersAfter_input (i : Instr) (s : State) : (registersAfter i s).input = s.input := by
  rw [registersAfter_eq]

@[simp] theorem registersAfter_resets (i : Instr) (s : State) : (registersAfter i s).resets = s.resets := by
  rw [registersAfter_eq]

/-- The end of an operation makes an initialised block `Ready` (R105). -/
theorem InitState.settled_of_initialised {x : InitState} (h : x ≠ .uninitialized) : x.settled = .ready := by
  cases x
  · exact absurd rfl h
  · rfl
  · rfl

/-- The enable line's discipline passes from a list to its tail, with the head performed on the pins. -/
theorem strobeSafe_tail {p : Pins} {e : Event} {l : List Event} (h : strobeSafe p.en (e :: l) = true) :
    strobeSafe (p.perform e).en l = true := by
  cases e with
  | en level => exact h
  | wait q => exact h
  | rs level => exact (Bool.and_eq_true_iff.1 h).2
  | data n => exact (Bool.and_eq_true_iff.1 h).2

/-- An INITIALIZE before its step 3 stays so or passes it, and passing it brings EN low (R103). -/
theorem settlesEnable_tail {p : Pins} {e : Event} {l : List Event} (h : settlesEnable (e :: l) = true) :
    strobeSafe (p.perform e).en l = true ∨ settlesEnable l = true := by
  unfold settlesEnable at h
  split at h
  case h_1 heq =>
    obtain ⟨-, rfl⟩ := List.cons.inj heq
    exact .inr h
  case h_2 heq =>
    obtain ⟨-, rfl⟩ := List.cons.inj heq
    exact .inr h
  case h_3 heq =>
    obtain ⟨rfl, rfl⟩ := List.cons.inj heq
    exact .inl (Bool.and_eq_true_iff.1 h).1
  case h_4 => cases h

/-- The event list of INITIALIZE begins with the three events that settle EN; the rest is disciplined (R100, R103). -/
theorem settlesEnable_initEvents (c : Cmd) (f : FunctionFlags) : settlesEnable (initEvents c f) = true := rfl

section
variable {s : State} {l : List Event} {st : Status}

theorem strobeInv_of_uninitialized (hi : s.initState = .uninitialized) : s.strobeInv := by
  simp [State.strobeInv, hi]

theorem not_strobeInv_initializing_idle (hi : s.initState = .initializing) (hs : s.seq = .idle) : ¬ s.strobeInv := by
  simp [State.strobeInv, hi, hs]

theorem strobeInv_initializing_running (hi : s.initState = .initializing) (hs : s.seq = .running l st) :
    s.strobeInv ↔ strobeSafe s.pins.en l = true ∨ settlesEnable l = true := by
  simp [State.strobeInv, hi, hs]

theorem strobeInv_ready_idle (hi : s.initState = .ready) (hs : s.seq = .idle) : s.strobeInv ↔ s.pins.en = false := by
  simp [State.strobeInv, hi, hs]

theorem strobeInv_ready_running (hi : s.initState = .ready) (hs : s.seq = .running l st) :
    s.strobeInv ↔ strobeSafe s.pins.en l = true := by
  simp [State.strobeInv, hi, hs]

/-- A running operation that performs its head event keeps the enable line's discipline. -/
theorem strobeInv_performed {e : Event} (hs : s.seq = .running (e :: l) st) (h : s.strobeInv) :
    (s.performed e l st).strobeInv := by
  cases hi : s.initState with
  | uninitialized => exact strobeInv_of_uninitialized hi
  | initializing =>
    refine (strobeInv_initializing_running (s := s.performed e l st) hi rfl).2 ?_
    rcases (strobeInv_initializing_running hi hs).1 h with h | h
    · exact .inl (strobeSafe_tail h)
    · exact settlesEnable_tail h
  | ready =>
    exact (strobeInv_ready_running (s := s.performed e l st) hi rfl).2
      (strobeSafe_tail ((strobeInv_ready_running hi hs).1 h))

/-- At the end of an operation EN is low. -/
theorem en_low_at_end (hs : s.seq = .running [] st) (hi : s.initState ≠ .uninitialized) (h : s.strobeInv) :
    s.pins.en = false := by
  have hsafe : strobeSafe s.pins.en [] = true := by
    cases hx : s.initState with
    | uninitialized => exact absurd hx hi
    | initializing => exact ((strobeInv_initializing_running hx hs).1 h).resolve_right Bool.false_ne_true
    | ready => exact (strobeInv_ready_running hx hs).1 h
  simpa [strobeSafe] using hsafe

/-- With `rst` low the invariant says nothing of a reset held (R220). -/
theorem held_of_low (hr : s.rst = false) : s.rst = true → s.initState = .uninitialized ∧ s.rsp = none :=
  fun h => absurd (hr.symm.trans h) Bool.false_ne_true

/-- Every reset state meets the invariant (R33). -/
theorem State.atReset_inv (cmd : Cmd) (k : Nat) (input : List PortInput) : (State.atReset cmd k input).Inv where
  lines h := absurd rfl h
  table h := absurd rfl h
  twoLine h := absurd rfl h
  atReset _ := ⟨rfl, rfl, rfl, rfl, rfl, rfl⟩
  runsOk _ _ h := nomatch h
  held _ := ⟨rfl, rfl⟩
  strobe := strobeInv_of_uninitialized rfl

/-- Nothing runs before the first INITIALIZE (R33). -/
theorem State.Inv.initialised_of_running (h : s.Inv) (hs : s.seq = .running l st) : s.initState ≠ .uninitialized := by
  intro hi
  obtain ⟨-, -, -, -, -, hidle⟩ := h.atReset hi
  exact Seq.noConfusion (hs.symm.trans hidle)

theorem State.Inv.heldInReset (h : s.Inv) (r : List PortInput) : (s.heldInReset r).Inv :=
  { h with held := fun hr => ⟨(h.held hr).1, rfl⟩ }

theorem State.Inv.taken (h : s.Inv) (r : List PortInput) : (s.taken r).Inv :=
  { h with held := held_of_low rfl }

theorem State.Inv.responded (h : s.Inv) (hr : s.rst = false) (st : Status) : (s.responded st).Inv :=
  { h with held := held_of_low hr }

theorem State.Inv.performed {e : Event} (h : s.Inv) (hr : s.rst = false) (hs : s.seq = .running (e :: l) st) :
    (s.performed e l st).Inv where
  lines := h.lines
  table := h.table
  twoLine := h.twoLine
  atReset hi := absurd hi (h.initialised_of_running hs)
  runsOk _ _ hl := (Seq.running.inj hl).2 ▸ h.runsOk _ _ hs
  held := held_of_low hr
  strobe := strobeInv_performed hs h.strobe

theorem State.Inv.completed (h : s.Inv) (hr : s.rst = false) (hs : s.seq = .running [] st) : (s.completed st).Inv :=
  have hi := h.initialised_of_running hs
  have hready : (s.completed st).initState = .ready := InitState.settled_of_initialised hi
  { lines := fun _ => h.lines hi
    table := fun _ => h.table hi
    twoLine := fun _ => h.twoLine hi
    atReset := fun hu => InitState.noConfusion (hready.symm.trans hu)
    runsOk := fun _ _ hl => nomatch hl
    held := held_of_low hr
    strobe := (strobeInv_ready_idle hready rfl).2 (en_low_at_end (s := s) hs hi h.strobe) }

/-- A step of the sequencer keeps the invariant (R175). -/
theorem advance_keeps_inv (h : s.Inv) (hr : s.rst = false) : (advance s).Inv := by
  rcases advance_cases s with ⟨-, ha⟩ | ⟨st, hs, ha⟩ | ⟨e, l, st, hs, ha⟩ <;> rw [ha]
  · exact h
  · exact h.completed hr hs
  · exact h.performed hr hs

/-- An accepted INITIALIZE establishes the invariant, whatever the registers were (R100 to R103). -/
theorem State.configured_started_inv {c r : Byte} {f : FontSize} (hrows : rowsLegal r = true) (hr : s.rst = false) :
    ((s.configured c r f).started (initEvents s.cmd (functionFlagsOf r f))).Inv where
  lines _ := (rowsLegal_iff r).1 hrows
  table _ := rfl
  twoLine _ := rfl
  atReset hi := nomatch hi
  runsOk _ _ hl := (Seq.running.inj hl).2.symm
  held := held_of_low hr
  strobe := (strobeInv_initializing_running rfl rfl).2 (.inr (settlesEnable_initEvents ..))

/-- An accepted guarded operation keeps the invariant: its events are disciplined and EN is low before them (R137, R173). -/
theorem State.Inv.registersAfter_started (h : s.Inv) (hr : s.rst = false) (hs : s.seq = .idle) (hi : s.initState = .ready)
    (hl : strobeSafe false l = true) (i : Instr) : ((registersAfter i s).started l).Inv := by
  have hlow : s.pins.en = false := (strobeInv_ready_idle hi hs).1 h.strobe
  exact
    { lines := by simpa using h.lines
      table := by simpa using h.table
      twoLine := by simpa using h.twoLine
      atReset := fun hu => absurd hu (by simp [hi])
      runsOk := fun _ _ hl => (Seq.running.inj hl).2.symm
      held := held_of_low (by simp [hr])
      strobe := (strobeInv_ready_running (by simp [hi]) rfl).2 (by simp [hlow, hl]) }

/-- Acceptance by an idle block keeps the invariant (R29, R137). -/
theorem exec_keeps_inv {t : State} {i : Instr} (h : s.Inv) (hr : s.rst = false) (hs : s.seq = .idle)
    (ht : exec i s = .next t) : t.Inv := by
  rcases exec_cases i s with
    ⟨c, r, f, -, hrows, hx⟩ | ⟨c, r, f, -, -, hx⟩ | ⟨-, -, hx⟩ | ⟨-, hi, l, hl, hx⟩ <;>
    obtain rfl := Host.Outcome.next.inj (hx.symm.trans ht)
  · exact State.configured_started_inv hrows hr
  · exact h.responded hr _
  · exact h.responded hr _
  · exact h.registersAfter_started hr hs hi hl i

end

/-- Settles O47, by the cases of a step: a new reset establishes the invariant, a held one, an acceptance, a refusal and a step of
the sequencer keep it. -/
theorem stepKeepsTheInvariant : Obligations.StepKeepsTheInvariant := by
  intro s t h ht
  rcases step_cases s with
    ⟨r, -, -, hx⟩ | ⟨r, -, -, hx⟩ | ⟨w, r, i, -, hs, -, hx⟩ | ⟨w, r, x, -, -, -, hx⟩ | ⟨r, hx⟩ <;>
    rw [hx] at ht
  · obtain rfl := Host.Outcome.next.inj ht
    exact State.atReset_inv ..
  · obtain rfl := Host.Outcome.next.inj ht
    exact h.heldInReset r
  · exact exec_keeps_inv (h.taken r) rfl hs ht
  · obtain rfl := Host.Outcome.next.inj ht
    exact (h.taken r).responded rfl _
  · obtain rfl := Host.Outcome.next.inj ht
    exact advance_keeps_inv (h.taken r) rfl

/-- Settles O48: the power-on state is a reset state. -/
theorem resetMeetsTheInvariant : Obligations.ResetMeetsTheInvariant :=
  ⟨State.atReset_inv .., State.atReset_inv⟩

end Sys2Proof.Machine

namespace Sys2Proof.Machine

/-! ### Single steps (R29, R70, R175, R220) -/

/-- Settles O11: acceptance always answers a next state, and so does every other case of a step. -/
theorem everyStepIsEnabled : Obligations.EveryStepIsEnabled := by
  intro s
  rcases step_cases s with
    ⟨r, -, -, hx⟩ | ⟨r, -, -, hx⟩ | ⟨w, r, i, -, -, -, hx⟩ | ⟨w, r, x, -, -, -, hx⟩ | ⟨r, hx⟩
  case inr.inr.inl =>
    obtain ⟨t, ht⟩ := exec_next i (s.taken r)
    exact ⟨t, hx.trans ht⟩
  all_goals exact ⟨_, hx⟩

/-- Settles O6. -/
theorem acceptingStepRunsTheDecodedOperation : Obligations.AcceptingStepRunsTheDecodedOperation :=
  fun _ _ _ _ hs hin hd => step_accept hin hs hd

/-- The sequencer neither reads nor writes what the host presents (R61). -/
theorem advance_withInput (s : State) (r : List PortInput) :
    advance { s with input := r } = { advance s with input := r } := by
  rcases advance_cases s with ⟨hs, h⟩ | ⟨st, hs, h⟩ | ⟨e, l, st, hs, h⟩ <;> rw [h]
  · exact advance_idle hs
  · exact advance_end hs
  · exact advance_event hs

/-- Settles O8: with and without the request the step is one of the sequencer, which does not read the port. -/
theorem runningBlockIgnoresTheRequestPort : Obligations.RunningBlockIgnoresTheRequestPort := by
  intro s l st w rest hs
  refine ⟨advance (s.taken []), step_noInput rfl, ?_, by simp [acceptance, hs]⟩
  calc step { s with input := .request w :: rest }
      = .next (advance (s.taken (.request w :: rest))) := step_waiting rfl hs
    _ = .next { advance (s.taken []) with input := .request w :: rest } :=
        congrArg _ (advance_withInput (s.taken []) (.request w :: rest))

/-- The step of a running operation with a pending event performs it, whatever request waits (R29, R175). -/
theorem step_performs {s : State} {e : Event} {l : List Event} {st : Status} (hs : s.seq = .running (e :: l) st)
    (hw : Spec.Waiting s.input) : step s = .next ((s.taken s.input).performed e l st) :=
  (step_running hs hw).trans (congrArg _ (advance_event hs))

/-- The step of a running operation without a pending event responds (R175). -/
theorem step_completes {s : State} {st : Status} (hs : s.seq = .running [] st) (hw : Spec.Waiting s.input) :
    step s = .next ((s.taken s.input).completed st) :=
  (step_running hs hw).trans (congrArg _ (advance_end hs))

/-- Settles O9: the step performs the head event, and each kind of event writes its own pin register. -/
theorem sequencerPerformsTheHeadEvent : Obligations.SequencerPerformsTheHeadEvent := by
  intro s e l st hs hw
  rw [step_performs hs hw]
  cases e <;> rfl

/-- Settles O15. -/
theorem resetStepLeavesTheResetState : Obligations.ResetStepLeavesTheResetState :=
  fun _ _ hin hr => step_reset hin hr

/-- Settles O16: each clause is a field or a port of the reset state. -/
theorem powerOnResetIsTheTable : Obligations.PowerOnResetIsTheTable :=
  ⟨rfl, rfl, rfl, rfl, rfl, rfl, rfl, rfl, rfl, rfl⟩

/-! ### Runs of a running operation (R29, R105, R221) -/

/-- The deferred write, as the condition it is (R105). -/
theorem InitState.settled_eq_ite (x : InitState) : x.settled = if x = .initializing then .ready else x := by
  cases x <;> rfl

/-- Settles O12, by induction on the pending events: each step performs the head, and the last one responds. -/
theorem runningOperationReachesItsResponse : Obligations.RunningOperationReachesItsResponse := by
  intro s l st
  induction l generalizing s with
  | nil =>
    intro hs hw
    rw [← InitState.settled_eq_ite]
    exact core_run_succ 0 (step_completes hs hw)
  | cons e l ih =>
    intro hs hw
    have hrest := ih ((s.taken s.input).performed e l st) rfl hw
    exact (core_run_succ (l.length + 1) (step_performs hs hw)).trans hrest

/-- A quiet step of a running operation performs its head event (R175). -/
theorem step_quiet_performs {s : State} {e : Event} {l : List Event} {st : Status} {r : List PortInput}
    (hs : s.seq = .running (e :: l) st) (hin : s.input = .quiet :: r) :
    step s = .next ((s.taken r).performed e l st) :=
  (step_quiet hin).trans (congrArg _ (advance_event hs))

/-- It shows the event and no response. -/
theorem observe_quiet_performs {s : State} {e : Event} {l : List Event} {st : Status} {r : List PortInput}
    (hs : s.seq = .running (e :: l) st) (hin : s.input = .quiet :: r) : observe s = [.event e] := by
  rw [observe_running hs (by simp [hin]) (step_quiet_performs hs hin)]
  simp [nextEvent, hs]

/-- A new assertion of `rst` shows its marker (R221). -/
theorem observe_reset {s : State} {r : List PortInput} (hin : s.input = .reset :: r) (hr : s.rst = false) :
    observe s = [.resetMark] := by
  simp [observe, hin, hr]

/-- A held one shows nothing (log 4). -/
theorem observe_held {s : State} {r : List PortInput} (hin : s.input = .reset :: r) (hr : s.rst = true) :
    observe s = [] := by
  simp [observe, hin, hr]

/-- Settles O17, by induction on the number of events before the cut. -/
theorem resetCutsTheRunningOperation : Obligations.ResetCutsTheRunningOperation := by
  intro s l st k rest
  induction k generalizing s l with
  | zero =>
    intro hs hr _ hin
    have hstep := step_reset hin hr
    refine ⟨⟨s, rfl, rfl, hs⟩, core_run_succ 0 hstep, ?_⟩
    rw [runObs_succ 0 hstep, observe_reset hin hr]
    rfl
  | succ k ih =>
    intro hs hr hk hin
    cases l with
    | nil => exact absurd hk (Nat.not_succ_le_zero k)
    | cons e l =>
      rw [List.replicate_succ, List.cons_append] at hin
      have hstep := step_quiet_performs hs hin
      obtain ⟨⟨t, hrun, hpins, hseq⟩, hcut, hobs⟩ :=
        ih ((s.taken (List.replicate k .quiet ++ .reset :: rest)).performed e l st) l rfl rfl
          (Nat.le_of_succ_le_succ hk) rfl
      refine ⟨⟨t, (core_run_succ k hstep).trans hrun, hpins, hseq⟩, (core_run_succ (k + 1) hstep).trans hcut, ?_⟩
      rw [runObs_succ (k + 1) hstep, observe_quiet_performs hs hin, hobs]
      rfl

/-! ### Runs with `rst` asserted (R33, R220) -/

/-- While `rst` stays asserted, over any number of steps, only the response is withdrawn, and nothing is shown. -/
theorem core_run_held (k : Nat) (s : State) {rest : List PortInput}
    (hin : s.input = List.replicate (k + 1) .reset ++ rest) (hr : s.rst = true) :
    core.run (k + 1) s = .next (s.heldInReset rest) ∧ runObs (k + 1) s = [] := by
  induction k generalizing s with
  | zero =>
    have hstep := step_held hin hr
    exact ⟨core_run_succ 0 hstep, by rw [runObs_succ 0 hstep, observe_held hin hr]; rfl⟩
  | succ k ih =>
    rw [List.replicate_succ, List.cons_append] at hin
    have hstep := step_held hin hr
    obtain ⟨hrun, hobs⟩ := ih (s.heldInReset (List.replicate (k + 1) .reset ++ rest)) rfl hr
    exact ⟨(core_run_succ (k + 1) hstep).trans hrun, by rw [runObs_succ (k + 1) hstep, observe_held hin hr, hobs]; rfl⟩

/-- Settles O52: a held assertion is `core_run_held`; a new one is applied in its first step and then held. -/
theorem heldResetChangesNothing : Obligations.HeldResetChangesNothing := by
  refine fun k s rest hin => ⟨core_run_held k s hin, fun hr => ?_⟩
  have hstep := step_reset hin hr
  rw [core_run_succ k hstep, runObs_succ k hstep, observe_reset hin hr]
  cases k with
  | zero => exact ⟨rfl, rfl⟩
  | succ k =>
    obtain ⟨hrun, hobs⟩ := core_run_held k (State.atReset s.cmd (s.resets + 1) (List.replicate (k + 1) .reset ++ rest)) rfl rfl
    exact ⟨hrun, congrArg _ hobs⟩

/-! ### Reachable states -/

/-- What every step keeps holds at the end of every run from where it holds. -/
theorem core_run_keeps {P : State → Prop} (hstep : ∀ s t, P s → step s = .next t → P t) (n : Nat) {s t : State}
    (hs : P s) (hrun : core.run n s = .next t) : P t := by
  induction n generalizing s with
  | zero => exact Host.Outcome.next.inj hrun ▸ hs
  | succ n ih =>
    obtain ⟨u, hu⟩ := everyStepIsEnabled s
    rw [core_run_succ n hu] at hrun
    exact ih (hstep s u hs hu) hrun

/-- Every state a run from power-on reaches meets the invariant. -/
theorem reachedBy_inv {cmd : Cmd} {inputs : List PortInput} {n : Nat} {s : State} (h : reachedBy cmd inputs n s) : s.Inv :=
  core_run_keeps stepKeepsTheInvariant n (State.atReset_inv cmd 0 inputs) h

/-- Settles O51: the invariant leaves no room for an idle block in `Initializing`. -/
theorem idleBlockIsNeverInitializing : Obligations.IdleBlockIsNeverInitializing :=
  fun _ _ _ _ h hs hi => not_strobeInv_initializing_idle hi hs (reachedBy_inv h).strobe

end Sys2Proof.Machine

namespace Sys2Proof.Machine

/-! ### What acceptance leaves unchanged (R34, R137, R140) -/

theorem controlWrite_eq_none {i : Instr} (h : Spec.isControl i = false) : controlWrite i = none := by
  cases i with
  | display | noDisplay | cursor | noCursor | blink | noBlink => cases h
  | _ => rfl

theorem entryWrite_eq_none {i : Instr} (h : Spec.isEntry i = false) : entryWrite i = none := by
  cases i with
  | leftToRight | rightToLeft | autoscroll | noAutoscroll => cases h
  | _ => rfl

/-- Settles O33, by what an operation can do at acceptance: INITIALIZE writes every register, a refusal only responds, and a guarded
operation writes what `registersAfter` says. -/
theorem accessTableFrames : Obligations.AccessTableFrames := by
  intro i s t h
  rcases exec_cases i s with
    ⟨c, r, f, rfl, -, hx⟩ | ⟨c, r, f, -, -, hx⟩ | ⟨-, -, hx⟩ | ⟨-, -, l, -, hx⟩ <;>
    obtain rfl := Host.Outcome.next.inj (hx.symm.trans h)
  · simp [Spec.isInit]
  · simp [State.responded]
  · simp [State.responded]
  · refine ⟨registersAfter_cmd .., registersAfter_pins .., registersAfter_rst .., registersAfter_input ..,
      registersAfter_resets .., fun _ => ⟨registersAfter_functionFlags .., registersAfter_rowOffsetTable ..,
      registersAfter_numLines .., registersAfter_initState ..⟩, fun _ hc => ?_, fun _ he => ?_, ?_, ?_, ?_, ?_, ?_,
      fun hrsp => absurd (registersAfter_rsp ..) hrsp⟩
    · rw [registersAfter_eq, controlWrite_eq_none hc]; rfl
    · rw [registersAfter_eq, entryWrite_eq_none he]; rfl
    · rintro (rfl | rfl) <;> exact ⟨rfl, rfl⟩
    · rintro (rfl | rfl) <;> exact ⟨rfl, rfl⟩
    · rintro (rfl | rfl) <;> exact ⟨rfl, rfl⟩
    · rintro (rfl | rfl) <;> rfl
    · rintro (rfl | rfl) <;> rfl

/-- What acceptance does to `InitState`: an INITIALIZE with legal rows makes it `Initializing` (R26, R105). -/
theorem exec_initState {i : Instr} {s t : State} (h : exec i s = .next t) :
    t.initState = s.initState ∨
    (t.initState = .initializing ∧ ∃ c r f, i = .init c r f ∧ 1 ≤ r.toNat ∧ r.toNat ≤ 4) := by
  rcases exec_cases i s with
    ⟨c, r, f, rfl, hr, hx⟩ | ⟨c, r, f, -, -, hx⟩ | ⟨-, -, hx⟩ | ⟨-, -, l, -, hx⟩ <;>
    obtain rfl := Host.Outcome.next.inj (hx.symm.trans h)
  · exact .inr ⟨rfl, c, r, f, rfl, (rowsLegal_iff r).1 hr⟩
  · exact .inl rfl
  · exact .inl rfl
  · exact .inl (registersAfter_initState ..)

/-! ### What a step changes, and why (R26, R27) -/

/-- Settles O50, by the cases of a step; the sequencer touches `InitState` only where an operation ends. -/
theorem initStateChangesOnlyByItsCauses : Obligations.InitStateChangesOnlyByItsCauses := by
  intro s t h
  rcases step_cases s with
    ⟨r, hin, hr, hx⟩ | ⟨r, -, -, hx⟩ | ⟨w, r, i, hin, hs, hd, hx⟩ | ⟨w, r, x, -, -, -, hx⟩ | ⟨r, hx⟩ <;>
    rw [hx] at h
  · obtain rfl := Host.Outcome.next.inj h
    exact .inr (.inl ⟨rfl, hr, r, hin⟩)
  · obtain rfl := Host.Outcome.next.inj h
    exact .inl rfl
  · rcases exec_initState h with hi | ⟨hi, c, rows, f, rfl, hlegal⟩
    · exact .inl hi
    · exact .inr (.inr (.inl ⟨hi, hs, w, r, c, rows, f, hin, hd, hlegal⟩))
  · obtain rfl := Host.Outcome.next.inj h
    exact .inl rfl
  · obtain rfl := Host.Outcome.next.inj h
    rcases advance_cases (s.taken r) with ⟨-, ha⟩ | ⟨st, hs, ha⟩ | ⟨e, l, st, -, ha⟩ <;> rw [ha]
    · exact .inl rfl
    · by_cases hi : s.initState = .initializing
      · exact .inr (.inr (.inr ⟨hi, by simp [hi, InitState.settled], rfl, st, hs, rfl⟩))
      · exact .inl (by simp [hi, InitState.settled_eq_ite])
    · exact .inl rfl

/-- Settles O54, by the cases of a step; acceptance keeps the pins by the access table. -/
theorem pinsChangeOnlyByTheirCauses : Obligations.PinsChangeOnlyByTheirCauses := by
  intro s t h
  rcases step_cases s with
    ⟨r, hin, hr, hx⟩ | ⟨r, -, -, hx⟩ | ⟨w, r, i, -, -, -, hx⟩ | ⟨w, r, x, -, -, -, hx⟩ | ⟨r, hx⟩ <;>
    rw [hx] at h
  · obtain rfl := Host.Outcome.next.inj h
    exact .inr (.inr ⟨hr, ⟨r, hin⟩, rfl, rfl⟩)
  · obtain rfl := Host.Outcome.next.inj h
    exact .inl rfl
  · obtain ⟨-, hpins, -⟩ := accessTableFrames i (s.taken r) t h
    exact .inl hpins
  · obtain rfl := Host.Outcome.next.inj h
    exact .inl rfl
  · obtain rfl := Host.Outcome.next.inj h
    rcases advance_cases (s.taken r) with ⟨-, ha⟩ | ⟨st, -, ha⟩ | ⟨e, l, st, hs, ha⟩ <;> rw [ha]
    · exact .inl rfl
    · exact .inl rfl
    · exact .inr (.inl ⟨e, l, st, hs, rfl, rfl⟩)

/-! ### Raw commands (R35, R227) -/

/-- A raw command run to its end leaves an idle block as it was, but for the pins and the response (R160). -/
theorem operate_command (byte : Byte) (s : State) (hs : s.seq = .idle) :
    ∃ p q, operate (.command byte) s = { s with pins := p, rsp := q } := by
  rcases guarded_cases s (start (command byte)) with ⟨hi, hx⟩ | ⟨-, hx⟩
  · have hx : exec (.command byte) s = .next (s.started (command byte)) := hx
    refine ⟨s.pins.performAll (command byte), some .ok, ?_⟩
    simp [operate, hx, State.finished, State.completed, State.started, hi, hs, InitState.settled]
  · have hx : exec (.command byte) s = .next (s.responded .notInitialized) := hx
    refine ⟨s.pins, some .notInitialized, ?_⟩
    simp [operate, hx, State.finished, hs, State.responded]

/-- The events an operation performs do not depend on the pins or on an earlier response (R137). -/
theorem operationEvents_withPins (i : Instr) (s : State) (p : Pins) (q : Option Status) :
    operationEvents i { s with pins := p, rsp := q } = operationEvents i s := by
  obtain ⟨cmd, ff, cf, ef, tab, n, ini, pins, seq, rsp, rst, inp, k⟩ := s
  cases i with
  | init c r f => cases h : rowsLegal r <;> simp [operationEvents, exec, execInit, h, raise, start]
  | _ => cases ini <;> rfl

/-- Settles O34: a raw command leaves everything an operation's events depend on. -/
theorem rawCommandLeavesTheShadows : Obligations.RawCommandLeavesTheShadows := by
  intro byte s hs
  obtain ⟨p, q, h⟩ := operate_command byte s hs
  rw [h]
  exact ⟨rfl, rfl, rfl, fun i => operationEvents_withPins i s p q⟩

end Sys2Proof.Machine

namespace Sys2Proof.Machine

/-! ### The waveform (R176) -/

section
variable (t : Timing)

/-- An event that leaves the pins as they are lengthens the vector (log 15). -/
theorem waveformFrom_same {p : Pins} {e : Event} (h : p.perform e = p) (held : Nat) (l : List Event) :
    waveformFrom t p held (e :: l) = waveformFrom t p (held + e.minTime t) l := if_pos h

/-- An event that moves a pin begins the next vector. -/
theorem waveformFrom_change {p : Pins} {e : Event} (h : p.perform e ≠ p) (held : Nat) (l : List Event) :
    waveformFrom t p held (e :: l) = (p, held) :: waveformFrom t (p.perform e) 0 l := if_neg h

/-- What moves a pin is no wait, so it takes no time (R60). -/
theorem minTime_of_change {p : Pins} {e : Event} (h : p.perform e ≠ p) : e.minTime t = 0 := by
  cases e with
  | wait w => exact absurd rfl h
  | rs | en | data => rfl

theorem duration_cons (e : Event) (l : List Event) : duration t (e :: l) = e.minTime t + duration t l := by
  simp [duration]

theorem sum_waveformFrom (l : List Event) (p : Pins) (held : Nat) :
    ((waveformFrom t p held l).map Prod.snd).sum = held + duration t l := by
  induction l generalizing p held with
  | nil => simp [waveformFrom, duration]
  | cons e l ih =>
    by_cases h : p.perform e = p
    · rw [waveformFrom_same t h, ih, duration_cons]
      omega
    · rw [waveformFrom_change t h, List.map_cons, List.sum_cons, ih, duration_cons, minTime_of_change t h]

theorem head?_waveformFrom (l : List Event) (p : Pins) (held : Nat) :
    ((waveformFrom t p held l).map Prod.fst).head? = some p := by
  induction l generalizing held with
  | nil => rfl
  | cons e l ih =>
    by_cases h : p.perform e = p
    · rw [waveformFrom_same t h, ih]
    · rw [waveformFrom_change t h]
      rfl

theorem isChain_waveformFrom (l : List Event) (p : Pins) (held : Nat) :
    ((waveformFrom t p held l).map Prod.fst).IsChain (· ≠ ·) := by
  induction l generalizing p held with
  | nil => exact .singleton _
  | cons e l ih =>
    by_cases h : p.perform e = p
    · rw [waveformFrom_same t h]
      exact ih ..
    · rw [waveformFrom_change t h, List.map_cons, List.isChain_cons, head?_waveformFrom]
      refine ⟨fun y hy => ?_, ih ..⟩
      obtain rfl := Option.some.inj hy
      exact Ne.symm h

theorem getLast?_waveformFrom (l : List Event) (p : Pins) (held : Nat) :
    ((waveformFrom t p held l).map Prod.fst).getLast? = some (p.performAll l) := by
  induction l generalizing p held with
  | nil => rfl
  | cons e l ih =>
    by_cases h : p.perform e = p
    · rw [waveformFrom_same t h, ih, performAll_cons, h]
    · rw [waveformFrom_change t h, List.map_cons, List.getLast?_cons, ih]
      rfl

end

/-- Settles O45: each clause by induction on the events, from a vector already held for some time. -/
theorem waveformKeepsTimeAndShowsChangesOnly : Obligations.WaveformKeepsTimeAndShowsChangesOnly :=
  fun t p l => ⟨(sum_waveformFrom t l p 0).trans (Nat.zero_add _), isChain_waveformFrom t l p 0,
    head?_waveformFrom t l p 0, getLast?_waveformFrom t l p 0⟩

end Sys2Proof.Machine

namespace Sys2Proof.Machine

/-! ### Runs in several parts, and what they show (R59, R70) -/

/-- A run of `m + n` steps is one of `m` steps and one of `n` steps, and shows what they show. -/
theorem core_run_add {m : Nat} {s t : State} (h : core.run m s = .next t) (n : Nat) :
    core.run (m + n) s = core.run n t ∧ runObs (m + n) s = runObs m s ++ runObs n t := by
  induction m generalizing s with
  | zero =>
    obtain rfl := Host.Outcome.next.inj h
    simp [runObs]
  | succ m ih =>
    obtain ⟨u, hu⟩ := everyStepIsEnabled s
    rw [core_run_succ m hu] at h
    obtain ⟨hrun, hobs⟩ := ih h
    rw [Nat.succ_add, core_run_succ _ hu, runObs_succ _ hu, runObs_succ _ hu, hrun, hobs, List.append_assoc]
    exact ⟨rfl, rfl⟩

theorem not_reset_of_waiting {input : List PortInput} (hw : Spec.Waiting input) (r : List PortInput) :
    input ≠ .reset :: r := by
  rcases hw with rfl | ⟨w, rest, rfl⟩ <;> simp

/-- A step of a running operation with a pending event shows it and no response, whatever request waits. -/
theorem observe_performs {s : State} {e : Event} {l : List Event} {st : Status} (hs : s.seq = .running (e :: l) st)
    (hw : Spec.Waiting s.input) : observe s = [.event e] := by
  rw [observe_running hs (not_reset_of_waiting hw) (step_performs hs hw)]
  simp [nextEvent, hs]

/-- A step of a running operation without a pending event shows its response. -/
theorem observe_completes {s : State} {st : Status} (hs : s.seq = .running [] st) (hw : Spec.Waiting s.input) :
    observe s = [.response st] := by
  rw [observe_running hs (not_reset_of_waiting hw) (step_completes hs hw)]
  simp [nextEvent, hs]

/-- A running operation shows its pending events in order, and then its response (R70, R175). -/
theorem runObs_running {s : State} {l : List Event} {st : Status} (hs : s.seq = .running l st)
    (hw : Spec.Waiting s.input) : runObs (l.length + 1) s = l.map .event ++ [.response st] := by
  induction l generalizing s with
  | nil =>
    rw [List.length_nil, runObs_succ 0 (step_completes hs hw), observe_completes hs hw]
    rfl
  | cons e l ih =>
    have hrest : runObs (l.length + 1) ((s.taken s.input).performed e l st) = l.map .event ++ [.response st] := ih rfl hw
    rw [List.length_cons, runObs_succ _ (step_performs hs hw), observe_performs hs hw, hrest]
    rfl

/-! ### The big-step reading of an operation, and the port (R10, R61) -/

/-- The port as another host leaves it: the input still to come and the record of `rst` (log 4). -/
def State.withPort (s : State) (r : List PortInput) (b : Bool) : State := { s with input := r, rst := b }

@[simp] theorem State.withPort_seq (s : State) (r : List PortInput) (b : Bool) : (s.withPort r b).seq = s.seq := rfl

@[simp] theorem State.withPort_input (s : State) (r : List PortInput) (b : Bool) : (s.withPort r b).input = r := rfl

@[simp] theorem State.withPort_rst (s : State) (r : List PortInput) (b : Bool) : (s.withPort r b).rst = b := rfl

@[simp] theorem State.withPort_withPort (s : State) (r r' : List PortInput) (b b' : Bool) :
    (s.withPort r b).withPort r' b' = s.withPort r' b' := rfl

theorem finished_idle {s : State} (hs : s.seq = .idle) : s.finished = s := by
  simp only [State.finished, hs]

theorem finished_running {s : State} {l : List Event} {st : Status} (hs : s.seq = .running l st) :
    s.finished = State.completed { s with pins := s.pins.performAll l } st := by
  simp only [State.finished, hs]

/-- After its response an operation leaves the block idle (R29). -/
theorem finished_seq (s : State) : s.finished.seq = .idle := by
  cases hs : s.seq with
  | idle => rw [finished_idle hs, hs]
  | running l st => rw [finished_running hs, State.completed_seq]

theorem finished_withPort (s : State) (r : List PortInput) (b : Bool) :
    (s.withPort r b).finished = s.finished.withPort r b := by
  cases hs : s.seq with
  | idle => rw [finished_idle hs, finished_idle (s := s.withPort r b) hs]
  | running l st =>
    rw [finished_running hs, finished_running (s := s.withPort r b) hs]
    rfl

theorem operate_of_exec {i : Instr} {s t : State} (h : exec i s = .next t) : operate i s = t.finished := by
  simp only [operate, h]

theorem operationEvents_of_exec {i : Instr} {s t : State} {l : List Event} {st : Status} (h : exec i s = .next t)
    (hs : t.seq = .running l st) : operationEvents i s = l := by
  simp only [operationEvents, h, hs]

theorem operationEvents_of_idle {i : Instr} {s t : State} (h : exec i s = .next t) (hs : t.seq = .idle) :
    operationEvents i s = [] := by
  simp only [operationEvents, h, hs]

theorem operate_seq (i : Instr) (s : State) : (operate i s).seq = .idle := by
  obtain ⟨t, ht⟩ := exec_next i s
  rw [operate_of_exec ht, finished_seq]

/-- Acceptance neither reads nor writes the input still to come and the record of `rst` (R61). -/
theorem exec_withPort {i : Instr} {s t : State} (h : exec i s = .next t) (r : List PortInput) (b : Bool) :
    exec i (s.withPort r b) = .next (t.withPort r b) := by
  rcases exec_port i s with ⟨u, l, hu, -, hrsp, -, hport⟩ | ⟨st, -, hu, hport⟩ <;>
    obtain rfl := Host.Outcome.next.inj (hu.symm.trans h)
  · exact (hport r s.rsp b).trans (by rw [← hrsp]; rfl)
  · exact hport r s.rsp b

theorem operate_withPort (i : Instr) (s : State) (r : List PortInput) (b : Bool) :
    operate i (s.withPort r b) = (operate i s).withPort r b := by
  obtain ⟨t, ht⟩ := exec_next i s
  rw [operate_of_exec ht, operate_of_exec (exec_withPort ht r b), finished_withPort]

theorem operationEvents_withPort (i : Instr) (s : State) (r : List PortInput) (b : Bool) :
    operationEvents i (s.withPort r b) = operationEvents i s := by
  obtain ⟨t, ht⟩ := exec_next i s
  simp only [operationEvents, ht, exec_withPort ht r b, State.withPort_seq]

theorem operateAll_cons (i : Instr) (l : List Instr) (s : State) : operateAll (i :: l) s = operateAll l (operate i s) := rfl

theorem operateAll_withPort (l : List Instr) (s : State) (r : List PortInput) (b : Bool) :
    operateAll l (s.withPort r b) = (operateAll l s).withPort r b := by
  induction l generalizing s with
  | nil => rfl
  | cons i l ih => rw [operateAll_cons, operate_withPort, ih, operateAll_cons]

theorem traceAll_withPort (l : List Instr) (s : State) (r : List PortInput) (b : Bool) :
    traceAll l (s.withPort r b) = traceAll l s := by
  induction l generalizing s with
  | nil => rfl
  | cons i l ih => rw [traceAll, operationEvents_withPort, operate_withPort, ih, traceAll]

/-! ### The small steps refine the big steps (R59, R70, R175) -/

/-- A running operation ends in what `finished` says, with `rst` low (R105, R175). -/
theorem core_run_finished {s : State} {l : List Event} {st : Status} (hs : s.seq = .running l st)
    (hw : Spec.Waiting s.input) : core.run (l.length + 1) s = .next (s.finished.withPort s.input false) := by
  rw [runningOperationReachesItsResponse s l st hs hw, ← InitState.settled_eq_ite, finished_running hs]
  rfl

/-- The event that an element of an observation shows, if any. -/
def shownEvent : Obs → Option Event
  | .event e => some e
  | _        => none

theorem filterMap_shownEvent_running (l : List Event) (st : Status) :
    (l.map Obs.event ++ [Obs.response st]).filterMap shownEvent = l := by
  have h : shownEvent ∘ Obs.event = some := rfl
  simp [List.filterMap_map, h, shownEvent]

/-- One request, accepted and run to its response: the small steps end where the big step ends, and show its events. -/
theorem core_run_operate {s : State} {w : RequestWord} {r : List PortInput} {i : Instr} (hs : s.seq = .idle)
    (hin : s.input = .request w :: r) (hw : Spec.Waiting r) (hd : decode w = .ok i) :
    ∃ n, core.run n s = .next ((operate i s).withPort r false) ∧
      (runObs n s).filterMap shownEvent = operationEvents i s := by
  rcases exec_port i s with ⟨t, l, h, ht, -, -, hport⟩ | ⟨st, -, h, hport⟩
  · have hstep : step s = .next (t.taken r) := (step_accept hin hs hd).trans (hport r none false)
    have ht' : (t.taken r).seq = .running l .ok := ht
    refine ⟨l.length + 1 + 1, ?_, ?_⟩
    · rw [core_run_succ _ hstep, core_run_finished ht' hw, operate_of_exec h, finished_running ht, finished_running ht']
      rfl
    · rw [runObs_succ _ hstep, observe_accept hs hin hstep, runObs_running ht' hw, List.filterMap_append,
        filterMap_shownEvent_running, operationEvents_of_exec h ht]
      rfl
  · have hstep : step s = .next ((s.responded st).withPort r false) :=
      (step_accept hin hs hd).trans (hport r none false)
    refine ⟨1, ?_, ?_⟩
    · rw [operate_of_exec h, finished_idle (s := s.responded st) hs]
      exact core_run_succ 0 hstep
    · rw [runObs_succ 0 hstep, observe_accept hs hin hstep, operationEvents_of_idle h hs]
      rfl

/-- The requests of a program, as the host presents them. -/
def requests (program : List (RequestWord × Instr)) : List PortInput := program.map fun p => .request p.1

theorem waiting_requests (program : List (RequestWord × Instr)) : Spec.Waiting (requests program) := by
  cases program with
  | nil => exact .inl rfl
  | cons p program => exact .inr ⟨p.1, requests program, rfl⟩

/-- A whole program, by induction on its requests: each is run to its response before the next is accepted. -/
theorem core_run_operateAll (program : List (RequestWord × Instr)) {s : State} (hs : s.seq = .idle)
    (hin : s.input = requests program) (hd : ∀ p ∈ program, decode p.1 = .ok p.2) :
    ∃ n, core.run n s = .next ((operateAll (program.map Prod.snd) s).withPort [] (s.rst && program.isEmpty)) ∧
      (runObs n s).filterMap shownEvent = traceAll (program.map Prod.snd) s := by
  induction program generalizing s with
  | nil =>
    have hin : s.input = [] := hin
    refine ⟨0, ?_, rfl⟩
    rw [core_run_zero, List.isEmpty_nil, Bool.and_true, ← hin]
    rfl
  | cons p program ih =>
    obtain ⟨hp, hprogram⟩ := List.forall_mem_cons.1 hd
    obtain ⟨m, hfirst, hfirstShows⟩ := core_run_operate hs hin (waiting_requests program) hp
    obtain ⟨n, hrest, hrestShows⟩ :=
      ih (s := (operate p.2 s).withPort (requests program) false) (operate_seq p.2 s) rfl hprogram
    obtain ⟨hrun, hshows⟩ := core_run_add hfirst n
    refine ⟨m + n, hrun.trans (hrest.trans ?_), ?_⟩
    · simp [operateAll_withPort, operateAll_cons]
    · rw [hshows, List.filterMap_append, hfirstShows]
      exact congrArg _ (hrestShows.trans (traceAll_withPort ..))

/-- Settles O13: the program is presented in place of the input of `s`, which the operations do not read. -/
theorem smallStepsRefineBigSteps : Obligations.SmallStepsRefineBigSteps := by
  intro program s hs hd
  obtain ⟨n, hrun, hshows⟩ := core_run_operateAll program (s := s.withPort (requests program) s.rst) hs rfl hd
  rw [operateAll_withPort] at hrun
  rw [traceAll_withPort] at hshows
  exact ⟨n, hrun, hshows⟩

end Sys2Proof.Machine

namespace Sys2Proof.Machine

/-! ### What the display is offered (R77) -/

/-- A bare nibble offers itself once, at the level RS has, whatever EN was (R171, R172; log 19). -/
theorem offers_sendNibble_append (p : Pins) (n : Byte) (l : List Event) :
    offers p (sendNibble n ++ l) = (p.rs, n.setWidth 4) :: offers (p.performAll (sendNibble n)) l := rfl

theorem performAll_sendByte_eq (p : Pins) (v : Byte) (rs : Bool) :
    p.performAll (sendByte v rs) = ⟨rs, false, v.extractLsb' 0 4⟩ := by
  rw [performAll_sendByte, lowNibble_eq]

/-- A byte is two nibbles at the level of RS (R170). -/
theorem offers_sendByte_append (p : Pins) (v : Byte) (rs : Bool) (l : List Event) :
    offers p (sendByte v rs ++ l) = Spec.byteOffers rs v ++ offers ⟨rs, false, v.extractLsb' 0 4⟩ l := by
  calc offers p (sendByte v rs ++ l)
      = offers { p with rs := rs } (sendNibble (v >>> 4) ++ (sendNibble v ++ l)) := rfl
    _ = Spec.byteOffers rs v ++ offers ⟨rs, false, v.extractLsb' 0 4⟩ l := by
        rw [offers_sendNibble_append, offers_sendNibble_append, highNibble_eq, performAll_sendNibble,
          performAll_sendNibble, lowNibble_eq]
        rfl

/-- Settles O38. -/
theorem byteOffersHighNibbleFirst : Obligations.ByteOffersHighNibbleFirst := by
  refine fun v rs p l => ⟨offers_sendByte_append p v rs l, performAll_sendByte_eq p v rs, fun s hs => ?_⟩
  rw [performAll_sendByte_eq] at hs
  simp [State.pinD4, State.pinD5, State.pinD6, State.pinD7, hs]

end Sys2Proof.Machine

namespace Sys2Proof.Machine

/-! ### The events of an accepted operation, by its form (R100, R120 to R135, R160, R161) -/

/-- The operations that send one byte and nothing else: all but INITIALIZE, CLEAR, HOME and CREATECHAR. -/
def sendsOneByte : Instr → Bool
  | .init _ _ _ | .clear | .home | .createChar _ _ => false
  | _ => true

theorem operationEvents_started {i : Instr} {s t : State} {l : List Event} (h : exec i s = .next (t.started l)) :
    operationEvents i s = l := operationEvents_of_exec h (State.started_seq t l)

theorem operationEvents_init {c r : Byte} {f : FontSize} (h : rowsLegal r = true) (s : State) :
    operationEvents (.init c r f) s = initEvents s.cmd (functionFlagsOf r f) :=
  operationEvents_started (if_pos h)

section
variable {s : State} (hs : s.initState = .ready)
include hs

theorem operationEvents_clear : operationEvents .clear s = command s.cmd.clearDisplay ++ [.wait .homeClear] :=
  operationEvents_started (guarded_ready hs)

theorem operationEvents_home : operationEvents .home s = command s.cmd.returnHome ++ [.wait .homeClear] :=
  operationEvents_started (guarded_ready hs)

theorem operationEvents_createChar (slot : Byte) (bitmap : List Byte) :
    operationEvents (.createChar slot bitmap) s =
      command (s.cmd.setCgramAddr ||| cgramAddress slot) ++ bitmap.flatMap writeByte :=
  operationEvents_started (guarded_ready hs)

theorem operationEvents_oneByte {i : Instr} (hi : sendsOneByte i = true) : ∃ v rs, operationEvents i s = sendByte v rs := by
  cases i with
  | init | clear | home | createChar => cases hi
  | display | noDisplay | cursor | noCursor | blink | noBlink =>
    exact ⟨_, _, operationEvents_started ((exec_controlWrite rfl s).trans (updateControl_ready hs _))⟩
  | leftToRight | rightToLeft | autoscroll | noAutoscroll =>
    exact ⟨_, _, operationEvents_started ((exec_entryWrite rfl s).trans (updateEntry_ready hs _))⟩
  | _ => exact ⟨_, _, operationEvents_started (guarded_ready hs)⟩

end

/-! ### The sum of the waits (R230) -/

section
variable (t : Timing)

@[simp] theorem duration_append (l m : List Event) : duration t (l ++ m) = duration t l + duration t m := by
  simp [duration]

@[simp] theorem duration_wait (q : TimingParam) : duration t [.wait q] = t.get q := rfl

@[simp] theorem duration_sendNibble (n : Byte) : duration t (sendNibble n) = Spec.p3 t := by
  simp [duration, sendNibble, pulseEnable, Event.minTime, Timing.get, Spec.p3, Nat.add_assoc]

@[simp] theorem duration_sendByte (v : Byte) (rs : Bool) : duration t (sendByte v rs) = 2 * Spec.p3 t := by
  rw [sendByte, duration_cons, duration_append, duration_sendNibble, duration_sendNibble, Event.minTime]
  omega

theorem duration_bitmap (bitmap : List Byte) :
    duration t (bitmap.flatMap writeByte) = bitmap.length * (2 * Spec.p3 t) := by
  induction bitmap with
  | nil => simp [duration]
  | cons row rows ih =>
    rw [List.flatMap_cons, duration_append, ih, writeByte, duration_sendByte, List.length_cons]
    ring

theorem duration_initEvents (c : Cmd) (f : FunctionFlags) :
    duration t (initEvents c f) = t.powerUp + t.init1 + t.init2 + t.init3 + t.homeClear + 12 * Spec.p3 t := by
  have hpre : duration t handshakePreamble = t.powerUp := rfl
  have hnib : duration t handshakeNibbles = t.init1 + t.init2 + t.init3 + 4 * Spec.p3 t := by
    simp only [handshakeNibbles, duration_append, duration_sendNibble, duration_wait, Timing.get]
    omega
  simp only [initEvents, command, duration_append, duration_sendByte, duration_wait, Timing.get, hpre, hnib]
  omega

theorem expectedDuration_oneByte {i : Instr} (hi : sendsOneByte i = true) : Spec.expectedDuration t i = 2 * Spec.p3 t := by
  cases i with
  | init | clear | home | createChar => cases hi
  | _ => rfl

end

/-- Settles O44, by the form of the operation's event list; a well-formed CREATECHAR has eight rows. -/
theorem durationsAreTheTable : Obligations.DurationsAreTheTable := by
  rintro t i s hwf (⟨c, r, f, rfl, hrows⟩ | ⟨hinit, hs⟩)
  · rw [operationEvents_init ((rowsLegal_iff r).2 hrows), duration_initEvents, Spec.expectedDuration]
  cases hi : sendsOneByte i with
  | true =>
    obtain ⟨v, rs, h⟩ := operationEvents_oneByte hs hi
    rw [h, duration_sendByte, expectedDuration_oneByte t hi]
  | false =>
    cases i with
    | init => cases hinit
    | clear => rw [operationEvents_clear hs, duration_append, command, duration_sendByte, duration_wait]; rfl
    | home => rw [operationEvents_home hs, duration_append, command, duration_sendByte, duration_wait]; rfl
    | createChar slot bitmap =>
      have hlen : bitmap.length = 8 := by simpa [Instr.wellFormed] using hwf
      rw [operationEvents_createChar hs, duration_append, command, duration_sendByte, duration_bitmap, hlen,
        Spec.expectedDuration]
      omega
    | _ => cases hi

/-! ### Real time (R200, R229) -/

theorem admissible_cons (t : Timing) (start at' : Nat) (e : Event) (l : List (Event × Nat)) :
    admissible t start ((e, at') :: l) = true ↔ start + e.minTime t ≤ at' ∧ admissible t at' l = true := by
  simp [admissible]

/-- Each event's minimum grows with the parameters (R229). -/
theorem minTime_mono {t t' : Timing} (h : ∀ q, t'.get q ≤ t.get q) (e : Event) : e.minTime t' ≤ e.minTime t := by
  cases e with
  | wait q => exact h q
  | rs | en | data => exact Nat.le_refl 0

theorem start_add_duration_le_endTime {t : Timing} {l : List (Event × Nat)} {start : Nat}
    (h : admissible t start l = true) : start + duration t (l.map Prod.fst) ≤ endTime start l := by
  induction l generalizing start with
  | nil => exact Nat.le_refl start
  | cons p l ih =>
    obtain ⟨hgap, hrest⟩ := (admissible_cons ..).1 h
    calc start + duration t (p.1 :: l.map Prod.fst)
        = start + p.1.minTime t + duration t (l.map Prod.fst) := by rw [duration_cons, Nat.add_assoc]
      _ ≤ p.2 + duration t (l.map Prod.fst) := Nat.add_le_add_right hgap _
      _ ≤ endTime p.2 l := ih hrest

theorem admissible_mono {t t' : Timing} (hle : ∀ q, t'.get q ≤ t.get q) {l : List (Event × Nat)} {start : Nat}
    (h : admissible t start l = true) : admissible t' start l = true := by
  induction l generalizing start with
  | nil => rfl
  | cons p l ih =>
    obtain ⟨hgap, hrest⟩ := (admissible_cons ..).1 h
    exact (admissible_cons ..).2 ⟨(Nat.add_le_add_left (minTime_mono hle p.1) start).trans hgap, ih hrest⟩

/-- Settles O46. -/
theorem realTimeIsAtLeastTheWaits : Obligations.RealTimeIsAtLeastTheWaits :=
  fun _ _ _ h => ⟨start_add_duration_le_endTime h, fun _ hle => admissible_mono hle h⟩

end Sys2Proof.Machine

namespace Sys2Proof

/-! ### The decoder and the encoder invert each other (R71, R72, R79) -/

/-- The operands of an operation are what the word has in the fields that the operation's row of R72 lists. -/
def carries (w : RequestWord) : Instr → Prop
  | .init columns rows fontSize => fieldA w = columns ∧ fieldB w = rows ∧ fieldF w = fontSize
  | .setCursor col row          => fieldA w = col ∧ fieldB w = row
  | .createChar slot bitmap     => fieldA w = slot ∧ fieldBitmap w = bitmap
  | .command byte               => fieldA w = byte
  | .writeByte byte             => fieldA w = byte
  | _                           => True

/-- What the decoder answers, said once: the operation of the word's opcode, with its operands read from their fields. -/
theorem decode_eq_ok_iff (w : RequestWord) (i : Instr) : decode w = .ok i ↔ fieldOpc w = i.opcode ∧ carries w i := by
  constructor
  · intro h
    unfold decode at h
    split at h <;> cases h
    all_goals exact ⟨by assumption, by simp [carries]⟩
  · rintro ⟨hopc, hfields⟩
    unfold decode
    rw [hopc]
    cases i with
    | init => obtain ⟨rfl, rfl, rfl⟩ := hfields; rfl
    | setCursor | createChar => obtain ⟨rfl, rfl⟩ := hfields; rfl
    | command | writeByte => obtain rfl := hfields; rfl
    | _ => rfl

/-- The decoder rejects a word for its opcode only, which it names (R74). -/
theorem decode_eq_error {w : RequestWord} {x : DecodeError} (h : decode w = .error x) :
    x = .illegalOpcode (fieldOpc w) ∧ (fieldOpc w = 0x00 ∨ 0x14 ≤ (fieldOpc w).toNat) := by
  unfold decode at h
  split at h <;> cases h
  refine ⟨rfl, ?_⟩
  simp only [imp_false] at *
  bv_omega

theorem opcode_range (i : Instr) : 0x01 ≤ i.opcode.toNat ∧ i.opcode.toNat ≤ 0x13 := by
  cases i <;> simp [Instr.opcode]

theorem decode_ok_range {w : RequestWord} {i : Instr} (h : decode w = .ok i) :
    0x01 ≤ (fieldOpc w).toNat ∧ (fieldOpc w).toNat ≤ 0x13 := by
  rw [((decode_eq_ok_iff w i).1 h).1]
  exact opcode_range i

/-! #### The payload, bit by bit -/

/-- The least significant byte of a payload lies below whatever is shifted over it. -/
theorem extractLsb'_shiftLeft_or (x : BitVec 64) (b : Byte) : (x <<< 8 ||| b.setWidth 64).extractLsb' 0 8 = b := by
  ext i hi
  simp
  grind

theorem extractLsb'_setWidth_byte (b : Byte) : (b.setWidth 64).extractLsb' 0 8 = b := by
  simpa using extractLsb'_shiftLeft_or 0 b

/-- Every row of a bitmap has its own byte of the payload (R71). -/
theorem extractLsb'_packBitmap {bitmap : List Byte} {k : Nat} (hk : k < 8) (hlen : k < bitmap.length) :
    (packBitmap bitmap).extractLsb' (8 * k) 8 = bitmap[k] := by
  induction bitmap generalizing k with
  | nil => cases hlen
  | cons row rows ih =>
    cases k with
    | zero => exact packBitmap_low row rows
    | succ k =>
      rw [packBitmap_next row rows (Nat.lt_of_succ_lt_succ hk)]
      exact ih (Nat.lt_of_succ_lt hk) (Nat.lt_of_succ_lt_succ hlen)

theorem getElem_fieldBitmap (w : RequestWord) {k : Nat} (hk : k < 8) : (fieldBitmap w)[k]'hk = fieldBm w k := by
  interval_cases k <;> rfl

theorem eq_of_bytes {p q : BitVec 64} (h : ∀ k < 8, p.extractLsb' (8 * k) 8 = q.extractLsb' (8 * k) 8) : p = q := by
  ext i hi
  have hbit := congrArg (BitVec.getLsbD · (i % 8)) (h (i / 8) (Nat.div_lt_of_lt_mul hi))
  simpa [Nat.mod_lt, Nat.div_add_mod, hi] using hbit

/-- The eight rows of a word, packed again, are its whole payload. -/
theorem packBitmap_fieldBitmap (w : RequestWord) : packBitmap (fieldBitmap w) = w.setWidth 64 := by
  refine eq_of_bytes fun k hk => ?_
  calc (packBitmap (fieldBitmap w)).extractLsb' (8 * k) 8
      = (fieldBitmap w)[k]'hk := extractLsb'_packBitmap hk _
    _ = fieldBm w k := getElem_fieldBitmap w hk
    _ = (w.setWidth 64).extractLsb' (8 * k) 8 := (BitVec.extractLsb'_setWidth_of_le (by omega)).symm

theorem and_lowByte (p : BitVec 64) : p &&& 0xFF#64 = (p.extractLsb' 0 8).setWidth 64 := by
  apply BitVec.eq_of_toNat_eq
  have h := Nat.and_two_pow_sub_one_eq_mod p.toNat 8
  simp at h ⊢
  omega

/-- The bit `f` of a word, put in its place again. -/
theorem and_fontBit (w : RequestWord) : w.setWidth 64 &&& 0x100#64 = (fontBit (fieldF w)).setWidth 64 <<< 8 := by
  have hmask : 0x100#64 = BitVec.twoPow 64 8 := by decide
  rw [hmask, BitVec.and_twoPow, BitVec.getLsbD_setWidth, fieldF]
  cases w.getLsbD 8 <;> rfl

/-! #### From operands to fields and back -/

theorem fieldF_encode_init (c r : Byte) (f : FontSize) : fieldF (encode (.init c r f)) = f := by
  cases f <;> simp [fieldF, encode, Instr.payload, fontBit]

theorem fieldBitmap_encode (slot : Byte) {bitmap : List Byte} (h : bitmap.length = 8) :
    fieldBitmap (encode (.createChar slot bitmap)) = bitmap := by
  refine List.ext_getElem h.symm fun k hk hk' => ?_
  calc (fieldBitmap (encode (.createChar slot bitmap)))[k]
      = fieldBm (encode (.createChar slot bitmap)) k := getElem_fieldBitmap _ hk
    _ = (packBitmap bitmap).extractLsb' (8 * k) 8 := fieldBm_packWord _ _ _ hk
    _ = bitmap[k] := extractLsb'_packBitmap hk hk'

/-- The canonical word of a well-formed operation carries its operands (R79). -/
theorem carries_encode {i : Instr} (h : i.wellFormed = true) : carries (encode i) i := by
  have hA : fieldA (encode i) = i.operandA := fieldA_packWord ..
  have hB : fieldB (encode i) = i.payload.extractLsb' 0 8 := fieldB_packWord ..
  cases i with
  | init c r f => exact ⟨hA, hB.trans (extractLsb'_shiftLeft_or _ r), fieldF_encode_init c r f⟩
  | setCursor col row => exact ⟨hA, hB.trans (extractLsb'_setWidth_byte row)⟩
  | createChar slot bitmap => exact ⟨hA, fieldBitmap_encode slot (by simpa [Instr.wellFormed] using h)⟩
  | command | writeByte => exact hA
  | _ => trivial

/-- Settles O1: the canonical word has the operation's opcode and carries its operands. -/
theorem decodeOfEncodeIsIdentity : Obligations.DecodeOfEncodeIsIdentity := fun i h =>
  (decode_eq_ok_iff (encode i) i).2 ⟨fieldOpc_packWord .., carries_encode h⟩

/-- A bitmap read from a word has its eight rows. -/
theorem wellFormed_of_carries {w : RequestWord} {i : Instr} (h : carries w i) : i.wellFormed = true := by
  cases i with
  | createChar slot bitmap => rw [← h.2]; rfl
  | _ => rfl

/-- A word is its opcode, its operand `a` and its payload (R71). -/
theorem eq_of_fields {w w' : RequestWord} (hopc : fieldOpc w = fieldOpc w') (hA : fieldA w = fieldA w')
    (hp : w.setWidth 64 = w'.setWidth 64) : w = w' := by
  apply BitVec.eq_of_getLsbD_eq
  intro i hi
  rcases Nat.lt_or_ge i 64 with h | h
  · simpa [h] using congrArg (BitVec.getLsbD · i) hp
  rcases Nat.lt_or_ge i 72 with h' | h'
  · have hbit := congrArg (BitVec.getLsbD · (i - 64)) hA
    simpa [fieldA, Nat.add_sub_cancel' h, show i - 64 < 8 by omega] using hbit
  · have hbit := congrArg (BitVec.getLsbD · (i - 72)) hopc
    simpa [fieldOpc, Nat.add_sub_cancel' h', show i - 72 < 8 by omega] using hbit

@[simp] theorem setWidth_packWord (opc a : Byte) (p : BitVec 64) : (packWord opc a p).setWidth 64 = p := by
  ext i hi
  simp [packWord]

theorem fieldOpc_and (w m : RequestWord) : fieldOpc (w &&& m) = fieldOpc w &&& fieldOpc m := BitVec.extractLsb'_and

theorem fieldA_and (w m : RequestWord) : fieldA (w &&& m) = fieldA w &&& fieldA m := BitVec.extractLsb'_and

/-- Every operation reads its whole opcode (R73). -/
theorem fieldOpc_usedBits (opc : Byte) : fieldOpc (usedBits opc) = BitVec.allOnes 8 := by
  unfold usedBits
  split <;> decide

/-- The operand `a` of the canonical word is the used part of the field (R73, R79). -/
theorem operandA_of_carries {w : RequestWord} {i : Instr} (h : carries w i) :
    i.operandA = fieldA w &&& fieldA (usedBits i.opcode) := by
  cases i with
  | init | setCursor | createChar =>
    rw [Instr.opcode]
    exact h.1.symm.trans BitVec.and_allOnes.symm
  | command | writeByte =>
    rw [Instr.opcode]
    exact h.symm.trans BitVec.and_allOnes.symm
  | _ => exact BitVec.and_zero.symm

/-- The payload of the canonical word is the used part of the word's payload (R73, R79). -/
theorem payload_of_carries {w : RequestWord} {i : Instr} (h : carries w i) :
    i.payload = w.setWidth 64 &&& (usedBits i.opcode).setWidth 64 := by
  have hlow : w.setWidth 64 &&& 0xFF#64 = (fieldB w).setWidth 64 := by
    rw [and_lowByte, BitVec.extractLsb'_setWidth_of_le (by omega), fieldB]
  cases i with
  | init c r f =>
    obtain ⟨-, rfl, rfl⟩ := h
    calc (fontBit (fieldF w)).setWidth 64 <<< 8 ||| (fieldB w).setWidth 64
        = w.setWidth 64 &&& (0x100#64 ||| 0xFF#64) := by rw [BitVec.and_or_distrib_left, and_fontBit, hlow]
      _ = w.setWidth 64 &&& (usedBits 0x01#8).setWidth 64 := rfl
  | setCursor col row =>
    obtain ⟨-, rfl⟩ := h
    rw [Instr.opcode]
    exact hlow.symm
  | createChar slot bitmap =>
    obtain ⟨-, rfl⟩ := h
    rw [Instr.opcode]
    exact (packBitmap_fieldBitmap w).trans BitVec.and_allOnes.symm
  | _ =>
    rw [Instr.opcode]
    exact BitVec.and_zero.symm

/-- Settles O2, field by field: opcode, operand `a`, payload. -/
theorem encodeOfDecodeClearsIgnoredBits : Obligations.EncodeOfDecodeClearsIgnoredBits := by
  intro w i h
  obtain ⟨hopc, hfields⟩ := (decode_eq_ok_iff w i).1 h
  refine ⟨wellFormed_of_carries hfields, ?_⟩
  rw [hopc]
  apply eq_of_fields
  · rw [encode, fieldOpc_packWord, fieldOpc_and, fieldOpc_usedBits, BitVec.and_allOnes, hopc]
  · rw [encode, fieldA_packWord, fieldA_and, operandA_of_carries hfields]
  · rw [encode, setWidth_packWord, BitVec.setWidth_and, payload_of_carries hfields]

/-- Settles O4: the decoder answers an operation for an assigned opcode only and an error for an unassigned one only. -/
theorem unassignedOpcodesAreRejected : Obligations.UnassignedOpcodesAreRejected := by
  intro w
  cases hd : decode w with
  | error x =>
    obtain ⟨rfl, hopc⟩ := decode_eq_error hd
    have hr : ¬ (0x01 ≤ (fieldOpc w).toNat ∧ (fieldOpc w).toNat ≤ 0x13) := by bv_omega
    exact ⟨iff_of_true rfl hopc, iff_of_false (by simp) hr⟩
  | ok i =>
    have hr := decode_ok_range hd
    have hopc : ¬ (fieldOpc w = 0x00 ∨ 0x14 ≤ (fieldOpc w).toNat) := by bv_omega
    exact ⟨iff_of_false (by simp) hopc, iff_of_true ⟨i, rfl⟩ hr⟩

/-- The opcodes that are assigned no operation are those the decoder rejects (R74). -/
theorem illegal_iff_decode_error (w : RequestWord) :
    (fieldOpc w = 0x00 ∨ 0x14 ≤ (fieldOpc w).toNat) ↔ decode w = .error (.illegalOpcode (fieldOpc w)) :=
  (unassignedOpcodesAreRejected w).1.symm

/-- Words that agree on the used bits decode alike: their operations have the same canonical word (R73). -/
theorem decode_eq_of_usedBits_eq {w w' : RequestWord} (hopc : fieldOpc w = fieldOpc w')
    (hused : w &&& usedBits (fieldOpc w) = w' &&& usedBits (fieldOpc w)) : decode w = decode w' := by
  cases hd : decode w with
  | error x =>
    obtain ⟨rfl, hillegal⟩ := decode_eq_error hd
    rw [hopc] at hillegal ⊢
    exact ((illegal_iff_decode_error w').1 hillegal).symm
  | ok i =>
    obtain ⟨j, hj⟩ := (unassignedOpcodesAreRejected w').2.2 (hopc ▸ decode_ok_range hd)
    obtain ⟨hwi, hi⟩ := encodeOfDecodeClearsIgnoredBits w i hd
    obtain ⟨hwj, hj'⟩ := encodeOfDecodeClearsIgnoredBits w' j hj
    have henc : encode i = encode j := by rw [hi, hj', hused, hopc]
    rw [hj, ← decodeOfEncodeIsIdentity i hwi, henc, decodeOfEncodeIsIdentity j hwj]

end Sys2Proof

namespace Sys2Proof.Machine

/-- Accepting steps depend on their words only through the decoder (R70). -/
theorem step_eq_of_decode_eq {s t : State} {w w' : RequestWord} {r : List PortInput} (hin : s.input = .request w :: r)
    (hin' : t.input = .request w' :: r) (hs : s.seq = .idle) (hs' : t.seq = .idle) (htaken : s.taken r = t.taken r)
    (hd : decode w = decode w') : step s = step t := by
  cases hx : decode w' with
  | error x => rw [step_illegal hin hs (hd.trans hx), step_illegal hin' hs' hx, htaken]
  | ok i => rw [step_accept hin hs (hd.trans hx), step_accept hin' hs' hx, htaken]

/-- Settles O3. -/
theorem ignoredBitsHaveNoEffect : Obligations.IgnoredBitsHaveNoEffect := fun _ _ hopc hused =>
  have hd := decode_eq_of_usedBits_eq hopc hused
  ⟨hd, fun _ _ hs => step_eq_of_decode_eq rfl rfl hs hs rfl hd⟩

/-- Settles O5: the decoder evaluates on each word. -/
theorem sampleWordsDecode : Obligations.SampleWordsDecode :=
  ⟨rfl, rfl, rfl, rfl, rfl, rfl⟩

end Sys2Proof.Machine

namespace Sys2Proof.Machine

/-! ### Accepting a request: its response or its events (R70, R175, R190 to R195) -/

/-- A request with an unassigned opcode only has its response (R74, R192). -/
theorem step_of_illegal_opcode {s : State} {w : RequestWord} {r : List PortInput} (hs : s.seq = .idle)
    (hin : s.input = .request w :: r) (hopc : fieldOpc w = 0x00 ∨ 0x14 ≤ (fieldOpc w).toNat) :
    step s = .next ((s.taken r).responded .illegalOp) :=
  step_illegal hin hs ((illegal_iff_decode_error w).1 hopc)

/-- Settles O7. -/
theorem illegalOpcodeOnlyResponds : Obligations.IllegalOpcodeOnlyResponds :=
  fun _ _ _ hs hin hopc => step_of_illegal_opcode hs hin hopc

/-- Settles O10: the step is one of the sequencer, which does nothing while it is idle. -/
theorem idleBlockDoesNothing : Obligations.IdleBlockDoesNothing := fun s hs =>
  ⟨fun hin =>
    calc step s = .next (advance (s.taken [])) := step_noInput hin
      _ = .next (s.taken []) := congrArg _ (advance_idle hs)
      _ = .next { s with rsp := none, rst := false } := by rw [← hin]; rfl,
    fun r hin => (step_quiet hin).trans (congrArg _ (advance_idle (s := s.taken r) hs))⟩

/-- What an accepted operation does at once: it responds with an error and nothing else, or its events are pending and no response
is given (R70, R175, R195). -/
theorem exec_taken_cases (i : Instr) (s : State) (r : List PortInput) :
    (∃ st, st ≠ .ok ∧ exec i (s.taken r) = .next ((s.taken r).responded st)) ∨
    (∃ t l, exec i (s.taken r) = .next t ∧ t.seq = .running l .ok ∧ t.rsp = none ∧ t.input = r) := by
  rcases exec_port i (s.taken r) with ⟨t, l, h, hseq, hrsp, hin, -⟩ | ⟨st, hne, h, -⟩
  · exact .inr ⟨t, l, h, hseq, hrsp, hin⟩
  · exact .inl ⟨st, hne, h⟩

/-- A request that is refused shows its acceptance and its response, in one step (log 2). -/
theorem runObs_refused {s : State} {w : RequestWord} {r : List PortInput} {st : Status} (hs : s.seq = .idle)
    (hin : s.input = .request w :: r) (hstep : step s = .next ((s.taken r).responded st)) :
    runObs 1 s = [.accepted w, .response st] := by
  rw [runObs_succ 0 hstep, observe_accept hs hin hstep]
  rfl

/-- A request that starts an operation shows its acceptance, then the operation's events, then its response (R70). -/
theorem runObs_accepted {s t : State} {w : RequestWord} {r : List PortInput} {l : List Event} (hs : s.seq = .idle)
    (hin : s.input = .request w :: r) (hstep : step s = .next t) (hseq : t.seq = .running l .ok) (hrsp : t.rsp = none)
    (hw : Spec.Waiting t.input) : runObs (l.length + 2) s = .accepted w :: (l.map .event ++ [.response .ok]) := by
  rw [runObs_succ _ hstep, observe_accept hs hin hstep, hrsp, runObs_running hseq hw]
  rfl

/-- Settles O14: the operation is refused, or started and run. -/
theorem oneResponseAfterAllEvents : Obligations.OneResponseAfterAllEvents := by
  intro s w r i hs hin hw hd
  have hstep := step_accept hin hs hd
  rcases exec_taken_cases i s r with ⟨st, hne, h⟩ | ⟨t, l, h, hseq, hrsp, htin⟩
  · exact .inl ⟨st, hne, h, runObs_refused hs hin (hstep.trans h)⟩
  · exact .inr ⟨l, t, h, hseq, runObs_accepted hs hin (hstep.trans h) hseq hrsp (htin ▸ hw)⟩

theorem ne_init_of_isInit {i : Instr} (hi : Spec.isInit i = false) (c n : Byte) (f : FontSize) : i ≠ .init c n f := by
  rintro rfl
  cases hi

theorem isInit_of_ne_init {i : Instr} (h : ∀ c n f, i ≠ .init c n f) : Spec.isInit i = false := by
  cases i with
  | init c n f => exact absurd rfl (h c n f)
  | _ => rfl

/-- The operand check fails for the rows of R193. -/
theorem rowsLegal_eq_false_iff (n : Byte) : rowsLegal n = false ↔ n = 0 ∨ 5 ≤ n.toNat := by
  rw [← Bool.not_eq_true, rowsLegal_iff]
  bv_omega

/-- INITIALIZE passes its check just when its rows are not illegal (R106). -/
theorem accepted_init (c n : Byte) (f : FontSize) (s : State) :
    Spec.Accepted (.init c n f) s ↔ ¬ (n = 0 ∨ 5 ≤ n.toNat) := by
  simp only [Spec.Accepted, Spec.isInit, Instr.init.injEq]
  constructor
  · rintro (⟨_, _, _, ⟨rfl, rfl, rfl⟩, h⟩ | ⟨h, -⟩)
    · bv_omega
    · cases h
  · exact fun h => .inl ⟨c, n, f, ⟨rfl, rfl, rfl⟩, by bv_omega⟩

/-- Any other operation passes its guard just in `Ready` (R138). -/
theorem accepted_guarded {i : Instr} (hi : Spec.isInit i = false) (s : State) :
    Spec.Accepted i s ↔ s.initState = .ready := by
  simp [Spec.Accepted, hi, ne_init_of_isInit hi]

/-- The outcomes of an accepting step: a refusal with its cause, or an operation that passes its checks (R190, R194). -/
theorem step_request_cases {s : State} {w : RequestWord} {r : List PortInput} (hs : s.seq = .idle)
    (hin : s.input = .request w :: r) :
    (∃ x, decode w = .error x ∧ step s = .next ((s.taken r).responded .illegalOp)) ∨
    (∃ c n f, decode w = .ok (.init c n f) ∧ (n = 0 ∨ 5 ≤ n.toNat) ∧
      step s = .next ((s.taken r).responded .badOperand)) ∨
    (∃ i, decode w = .ok i ∧ Spec.isInit i = false ∧ s.initState ≠ .ready ∧
      step s = .next ((s.taken r).responded .notInitialized)) ∨
    (∃ i t l, decode w = .ok i ∧ Spec.Accepted i s ∧ step s = .next t ∧ t.seq = .running l .ok ∧ t.rsp = none) := by
  cases hd : decode w with
  | error x => exact .inl ⟨x, rfl, step_illegal hin hs hd⟩
  | ok i =>
    have hstep := step_accept hin hs hd
    rcases exec_cases i (s.taken r) with
      ⟨c, n, f, rfl, hn, hx⟩ | ⟨c, n, f, rfl, hn, hx⟩ | ⟨hi, hready, hx⟩ | ⟨hi, hready, l, -, hx⟩
    · exact .inr (.inr (.inr ⟨_, _, _, rfl, .inl ⟨c, n, f, rfl, (rowsLegal_iff n).1 hn⟩, hstep.trans hx, rfl, rfl⟩))
    · exact .inr (.inl ⟨c, n, f, rfl, (rowsLegal_eq_false_iff n).1 hn, hstep.trans hx⟩)
    · exact .inr (.inr (.inl ⟨i, rfl, isInit_of_ne_init hi, hready, hstep.trans hx⟩))
    · exact .inr (.inr (.inr ⟨i, _, l, rfl, .inr ⟨isInit_of_ne_init hi, hready⟩, hstep.trans hx, rfl, registersAfter_rsp ..⟩))

/-- Settles O21: a step that responds is a refusal, and every step ends an earlier response before it reads the state. -/
theorem errorsChangeNothing : Obligations.ErrorsChangeNothing := by
  refine ⟨fun s t w r hs hin ht hrsp => ?_, fun _ _ => rfl⟩
  have hrefused : ∀ st, step s = .next ((s.taken r).responded st) →
      t = { s with input := r, rsp := t.rsp, rst := false } ∧
      ∃ st, t.rsp = some st ∧ runObs 1 s = [.accepted w, .response st] := fun st h => by
    obtain rfl := Host.Outcome.next.inj (h.symm.trans ht)
    exact ⟨rfl, st, rfl, runObs_refused hs hin h⟩
  rcases step_request_cases hs hin with ⟨x, -, h⟩ | ⟨c, n, f, -, -, h⟩ | ⟨i, -, -, -, h⟩ | ⟨i, t', l, -, -, h, -, hnone⟩
  · exact hrefused _ h
  · exact hrefused _ h
  · exact hrefused _ h
  · obtain rfl := Host.Outcome.next.inj (h.symm.trans ht)
    exact absurd hnone hrsp

/-- Settles O20: in each outcome of the accepting step the response and its cause are known, and exclude the others. -/
theorem everyStatusHasItsCause : Obligations.EveryStatusHasItsCause := by
  intro s t w r hs hin ht
  rw [illegal_iff_decode_error]
  rcases step_request_cases hs hin with
    ⟨x, hd, h⟩ | ⟨c, n, f, hd, hn, h⟩ | ⟨i, hd, hi, hready, h⟩ | ⟨i, t', l, hd, hacc, h, hseq, hrsp⟩ <;>
    obtain rfl := Host.Outcome.next.inj (h.symm.trans ht)
  · obtain ⟨rfl, -⟩ := decode_eq_error hd
    simp [hd, hs]
  · have hacc : ¬ Spec.Accepted (.init c n f) s := fun hacc => (accepted_init c n f s).1 hacc hn
    simpa [hd, hs, hacc, Spec.isInit] using hn
  · have hacc : ¬ Spec.Accepted i s := fun hacc => hready ((accepted_guarded hi s).1 hacc)
    simp [hd, hs, hi, hready, hacc, ne_init_of_isInit hi]
  · cases hi : Spec.isInit i with
    | true =>
      cases i with
      | init c n f =>
        have hn := (accepted_init c n f s).1 hacc
        simpa [hd, hseq, hrsp, hacc, Spec.isInit] using hn
      | _ => cases hi
    | false =>
      have hready := (accepted_guarded hi s).1 hacc
      simp [hd, hseq, hrsp, hacc, hready, ne_init_of_isInit hi]

end Sys2Proof.Machine

namespace Sys2Proof.Machine

/-! ### The offers of INITIALIZE and CREATECHAR (R77, R100, R135) -/

theorem offers_wait_append (p : Pins) (q : TimingParam) (l : List Event) : offers p ([.wait q] ++ l) = offers p l := rfl

theorem offers_nil (p : Pins) : offers p [] = [] := rfl

/-- A byte at the end of a list. -/
theorem offers_sendByte (p : Pins) (v : Byte) (rs : Bool) : offers p (sendByte v rs) = Spec.byteOffers rs v := by
  simpa [offers_nil] using offers_sendByte_append p v rs []

/-- The handshake offers its four bare nibbles at RS low; the falling edge of step 3 is no offer (R103; log 19). -/
theorem offers_handshake_append (p : Pins) (l : List Event) :
    offers p (handshakePreamble ++ handshakeNibbles ++ l) =
      [(false, 0x3), (false, 0x3), (false, 0x3), (false, 0x2)] ++ offers ⟨false, false, 0x2⟩ l := rfl

/-- The handshake, then the four command bytes, with the slow command's wait between (R100). -/
theorem offers_initEvents (p : Pins) (c : Cmd) (f : FunctionFlags) :
    offers p (initEvents c f) =
      [(false, 0x3), (false, 0x3), (false, 0x3), (false, 0x2)]
        ++ Spec.byteOffers false (serFunction c f)
        ++ Spec.byteOffers false (serControl c controlDefaults)
        ++ Spec.byteOffers false c.clearDisplay
        ++ Spec.byteOffers false (serEntry c entryDefaults) := by
  simp only [initEvents, command, List.append_assoc]
  rw [← List.append_assoc handshakePreamble, offers_handshake_append, offers_sendByte_append, offers_sendByte_append,
    offers_sendByte_append, offers_wait_append, offers_sendByte]

/-- Settles O39; with the default constants the last three bytes are 0x0C, 0x01 and 0x06. -/
theorem initializeOffers : Obligations.InitializeOffers := by
  intro c n f s p hpos hle
  rw [operationEvents_init ((rowsLegal_iff n).2 ⟨hpos, hle⟩), offers_initEvents]
  refine ⟨rfl, fun hcmd => ?_⟩
  rw [hcmd]
  rfl

theorem offers_bitmap (p : Pins) (bitmap : List Byte) :
    offers p (bitmap.flatMap writeByte) = bitmap.flatMap (Spec.byteOffers true) := by
  induction bitmap generalizing p with
  | nil => rfl
  | cons row rows ih => rw [List.flatMap_cons, writeByte, offers_sendByte_append, ih, List.flatMap_cons]

/-- Settles O40: the command byte, then each row. -/
theorem createCharOffers : Obligations.CreateCharOffers := by
  intro slot bitmap s p hs
  rw [operationEvents_createChar hs, command, offers_sendByte_append, offers_bitmap, cgramAddress]

/-! ### WRITETEXT (R80, R136) -/

/-- The machine's byte is the 15 events of the spec's short form (R52, R170). -/
theorem sendByte_eq_B (v : Byte) (rs : Bool) : sendByte v rs = Spec.B rs v := by
  rw [sendByte_eq, highNibble_eq, lowNibble_eq]
  rfl

/-- Without a terminator the whole text is expanded. -/
theorem expandText_of_no_terminator {text : List Byte} (h : ∀ c ∈ text, c ≠ 0) :
    expandText text = text.map .writeByte := by
  rw [expandText, List.takeWhile_eq_self_iff.2 (by simpa using h)]

/-- The text is cut before its first terminator (R80). -/
theorem expandText_append_terminator {text : List Byte} (h : ∀ c ∈ text, c ≠ 0) (tail : List Byte) :
    expandText (text ++ 0 :: tail) = text.map .writeByte := by
  rw [expandText, List.takeWhile_append_of_pos (by simpa using h), List.takeWhile_cons_of_neg (by simp), List.append_nil]

section
variable {s : State} (hs : s.initState = .ready)
include hs

theorem exec_writeByte_ready (b : Byte) : exec (.writeByte b) s = .next (s.started (writeByte b)) := guarded_ready hs

theorem operationEvents_writeByte (b : Byte) : operationEvents (.writeByte b) s = Spec.B true b :=
  (operationEvents_started (exec_writeByte_ready hs b)).trans (sendByte_eq_B b true)

/-- A WRITEBYTE run to its end touches the pins, the sequencer and the response only (R161). -/
theorem operate_writeByte (b : Byte) :
    operate (.writeByte b) s = { s with pins := s.pins.performAll (writeByte b), seq := .idle, rsp := some .ok } := by
  rw [operate_of_exec (exec_writeByte_ready hs b), finished_running (State.started_seq s _), State.completed]
  simp [State.started, hs, InitState.settled]

end

/-- The WRITEBYTEs of a text perform its bytes in order (R136). -/
theorem traceAll_writeBytes (text : List Byte) {s : State} (hs : s.initState = .ready) :
    traceAll (text.map .writeByte) s = text.flatMap (Spec.B true) := by
  induction text generalizing s with
  | nil => rfl
  | cons b text ih =>
    rw [List.map_cons, traceAll, operationEvents_writeByte hs, operate_writeByte hs, List.flatMap_cons]
    exact congrArg _ (ih hs)

/-- They leave every register but the pins, the sequencer and the response (R136, R161). -/
theorem operateAll_writeBytes (text : List Byte) {s : State} (hs : s.initState = .ready) :
    ∃ p q r, operateAll (text.map .writeByte) s = { s with pins := p, seq := q, rsp := r } := by
  induction text generalizing s with
  | nil => exact ⟨s.pins, s.seq, s.rsp, rfl⟩
  | cons b text ih =>
    rw [List.map_cons, operateAll_cons, operate_writeByte hs]
    exact ih hs

theorem length_flatMap_B (text : List Byte) (rs : Bool) : (text.flatMap (Spec.B rs)).length = 15 * text.length := by
  have hbyte : ∀ b, (Spec.B rs b).length = 15 := fun _ => rfl
  simp [List.length_flatMap, hbyte, Nat.mul_comm]

/-- Settles O36: the text is expanded whole, and its WRITEBYTEs run one after another in `Ready`. -/
theorem writeTextIsItsBytesInOrder : Obligations.WriteTextIsItsBytesInOrder := by
  intro text tail s hs htext
  obtain ⟨p, q, r, h⟩ := operateAll_writeBytes text hs
  rw [expandText_of_no_terminator htext, traceAll_writeBytes text hs, h]
  exact ⟨expandText_append_terminator htext tail, rfl, rfl, length_flatMap_B text true, rfl⟩

/-! ### Assembled words (R79, R80) -/

/-- A list that is parsed element by element keeps its length. -/
theorem length_of_mapM_eq_some {α β : Type} {f : α → Option β} {l : List α} {m : List β} (h : l.mapM f = some m) :
    m.length = l.length := by
  induction l generalizing m with
  | nil => cases h; rfl
  | cons a l ih =>
    simp only [List.mapM_cons, Option.bind_eq_bind, Option.bind_eq_some_iff] at h
    obtain ⟨b, -, bs, hbs, h⟩ := h
    cases h
    rw [List.length_cons, List.length_cons, ih hbs]

theorem wellFormed_of_plain {row : String × Instr} (h : row ∈ plainMnemonics) : row.2.wellFormed = true := by
  revert row
  decide

/-- An operation that parses is well formed; only a CREATECHAR could fail to be, and it is written with eight rows (R79). -/
theorem wellFormed_of_parseOperation {mnemonic : List Char} {operands : List (List Char)} {i : Instr}
    (h : parseOperation mnemonic operands = some i) : i.wellFormed = true := by
  unfold parseOperation at h
  split at h
  · cases h
    exact wellFormed_of_plain (List.mem_of_find?_eq_some ‹_›)
  · cases h
  split_ifs at h <;> split at h <;>
    simp only [Option.bind_eq_bind, Option.bind_eq_some_iff, Option.pure_def, Option.some.injEq, reduceCtorEq] at h
  · obtain ⟨columns, -, rows, -, font, -, rfl⟩ := h
    rfl
  · obtain ⟨col, -, row, -, rfl⟩ := h
    rfl
  · obtain ⟨slot, -, bitmap, hbitmap, rfl⟩ := h
    exact beq_iff_eq.2 (length_of_mapM_eq_some hbitmap)
  · obtain ⟨byte, -, rfl⟩ := h
    rfl
  · obtain ⟨byte, -, rfl⟩ := h
    rfl

/-- All operations of a line are well formed; those of a WRITETEXT are WRITEBYTEs. -/
theorem wellFormed_of_parseLine {line : List Char} {l : List Instr} (h : parseLine line = some l) :
    ∀ i ∈ l, i.wellFormed = true := by
  unfold parseLine at h
  simp only at h
  split_ifs at h
  · cases h; simp
  · obtain ⟨text, -, rfl⟩ := Option.map_eq_some_iff.1 h
    simp [expandText, Instr.wellFormed]
  · obtain ⟨i, hi, rfl⟩ := Option.map_eq_some_iff.1 h
    simpa using wellFormed_of_parseOperation hi

/-- Settles O37: every operation that parses is well formed, so its canonical word decodes to it. -/
theorem assembledWordsDecode : Obligations.AssembledWordsDecode := by
  intro line words h
  obtain ⟨l, hl, rfl⟩ := Option.map_eq_some_iff.1 h
  refine ⟨l, hl, ?_, rfl⟩
  rw [List.map_map]
  exact List.map_congr_left fun i hi => decodeOfEncodeIsIdentity i (wellFormed_of_parseLine hl i hi)

end Sys2Proof.Machine

namespace Sys2Proof.Machine

/-! ### The result of INITIALIZE (R100 to R107) -/

theorem exec_init_legal {n : Byte} (h : rowsLegal n = true) (c : Byte) (f : FontSize) (s : State) :
    exec (.init c n f) s = .next ((s.configured c n f).started (initEvents s.cmd (functionFlagsOf n f))) := if_pos h

theorem exec_init_illegal {n : Byte} (h : rowsLegal n = false) (c : Byte) (f : FontSize) (s : State) :
    exec (.init c n f) s = .next (s.responded .badOperand) := if_neg (Bool.eq_false_iff.1 h)

/-- Settles O19: the operand check fails for these rows. -/
theorem initializeRefusesIllegalRows : Obligations.InitializeRefusesIllegalRows :=
  fun c n f s hn => exec_init_illegal ((rowsLegal_eq_false_iff n).2 hn) c f s

/-! #### Its operands and what is computed from them (R71, R101, R102) -/

/-- A word of opcode 0x01 is an INITIALIZE with the operands `a`, `b` and `f` of the word (R72). -/
theorem decode_init {w : RequestWord} (hopc : fieldOpc w = 0x01) : decode w = .ok (.init (fieldA w) (fieldB w) (fieldF w)) :=
  (decode_eq_ok_iff w _).2 ⟨hopc, rfl, rfl, rfl⟩

/-- The last row offset is the sum modulo 256 (R101). -/
theorem rowOffsets_eq_mod (c : Byte) :
    rowOffsets c = #v[0x00, 0x40, c, BitVec.ofNat 8 ((0x40 + c.toNat) % 256)] := by
  have hsum : 0x40 + c = BitVec.ofNat 8 ((0x40 + c.toNat) % 256) := by
    apply BitVec.eq_of_toNat_eq
    simp
  rw [rowOffsets, hsum]

/-- Of the legal rows, 1 is the only one that is not two-line (R102). -/
theorem functionFlagsOf_of_pos {n : Byte} (hpos : 1 ≤ n.toNat) (f : FontSize) :
    functionFlagsOf n f = ⟨decide (n.toNat ≠ 1), decide (f = .dots5x10)⟩ := by
  have hlines : 1 < n.toNat ↔ n.toNat ≠ 1 := by omega
  simp only [functionFlagsOf, hlines]

/-! #### Its events (R100, R103) -/

/-- The machine's nibble is the 7 events of the spec's short form (R171, R172). -/
theorem sendNibble_eq_N (n : Byte) : sendNibble n = Spec.N (n.setWidth 4) := rfl

theorem serFunction_eq_functionByte (c : Cmd) (f : FunctionFlags) : serFunction c f = Spec.functionByte c f := rfl

theorem serControl_eq_controlByte (c : Cmd) (f : ControlFlags) : serControl c f = Spec.controlByte c f := rfl

theorem serEntry_eq_entryByte (c : Cmd) (f : EntryModeFlags) : serEntry c f = Spec.entryByte c f := rfl

/-- The machine's event list is that of V-INIT-1 (R100). -/
theorem initEvents_eq_initTrace (c : Cmd) (f : FunctionFlags) :
    initEvents c f = Spec.initTrace c (Spec.functionByte c f) := by
  simp only [initEvents, Spec.initTrace, handshakePreamble, handshakeNibbles, command, sendByte_eq_B, sendNibble_eq_N,
    serFunction_eq_functionByte, serControl_eq_controlByte, serEntry_eq_entryByte, List.append_assoc]
  rfl

@[simp] theorem length_initEvents (c : Cmd) (f : FunctionFlags) : (initEvents c f).length = 95 := rfl

/-- INITIALIZE ends with the byte of its step 9, so the pins are known whatever they were (R104). -/
theorem performAll_initEvents (p : Pins) (c : Cmd) (f : FunctionFlags) :
    p.performAll (initEvents c f) = ⟨false, false, (serEntry c entryDefaults).extractLsb' 0 4⟩ := by
  rw [initEvents, performAll_append]
  exact performAll_sendByte_eq ..

/-- Settles O30, by what an accepted INITIALIZE writes and what it sends. -/
theorem initializeResult : Obligations.InitializeResult := by
  refine ⟨fun _ hopc => decode_init hopc, fun c n f s hpos hle => ?_⟩
  rw [exec_init_legal ((rowsLegal_iff n).2 ⟨hpos, hle⟩), initEvents_eq_initTrace, ← functionFlagsOf_of_pos hpos,
    ← rowOffsets_eq_mod]
  rfl

/-! #### INITIALIZE run to its response (R104, R105) -/

/-- An accepted INITIALIZE ends `Ready` and idle, with the pins its last byte leaves: 95 steps for its events and one for its
response. -/
theorem core_run_initialize (c n : Byte) (f : FontSize) {s : State} (hw : Spec.Waiting s.input) :
    core.run 96 ((s.configured c n f).started (initEvents s.cmd (functionFlagsOf n f))) = .next
      { s.configured c n f with
        initState := .ready
        pins := ⟨false, false, (serEntry s.cmd entryDefaults).extractLsb' 0 4⟩
        seq := .idle
        rsp := some .ok
        rst := false } := by
  have hseq := State.started_seq (s.configured c n f) (initEvents s.cmd (functionFlagsOf n f))
  have hrun := core_run_finished hseq hw
  rw [length_initEvents, finished_running hseq, performAll_initEvents] at hrun
  exact hrun

/-- Settles O31: one step accepts, and what is then pending does not depend on the registers or the pins before. -/
theorem initializeEndsInOneKnownState : Obligations.InitializeEndsInOneKnownState := by
  intro s w r c n f hs hin hw hd hpos hle
  have hstep := (step_accept hin hs hd).trans (exec_init_legal ((rowsLegal_iff n).2 ⟨hpos, hle⟩) c f (s.taken r))
  exact (core_run_succ 96 hstep).trans (core_run_initialize c n f (s := s.taken r) hw)

end Sys2Proof.Machine

namespace Sys2Proof.Machine

/-! ### The guard, and what an operation that passes it does (R137, R138) -/

/-- Settles O18: without the guard's `Ready` an operation other than INITIALIZE has one outcome left. -/
theorem guardRefusesUntilReady : Obligations.GuardRefusesUntilReady := by
  intro i s hi hs
  rcases exec_cases i s with ⟨c, n, f, rfl, -, -⟩ | ⟨c, n, f, rfl, -, -⟩ | ⟨-, -, hx⟩ | ⟨-, hready, -⟩
  · cases hi
  · cases hi
  · exact hx
  · exact absurd hready hs

/-- In `Ready` a guarded operation writes what `registersAfter` says and has its events pending. -/
theorem exec_ready {i : Instr} {s : State} (hi : Spec.isInit i = false) (hs : s.initState = .ready) :
    exec i s = .next ((registersAfter i s).started (operationEvents i s)) := by
  rcases exec_cases i s with ⟨c, n, f, rfl, -, -⟩ | ⟨c, n, f, rfl, -, -⟩ | ⟨-, hready, -⟩ | ⟨-, -, l, -, hx⟩
  · cases hi
  · cases hi
  · exact absurd hs hready
  · rw [operationEvents_started hx, hx]

/-- In `Ready` a guarded operation runs to its OK response with its own events and register writes. -/
theorem runs_ready {i : Instr} {s : State} (hi : Spec.isInit i = false) (hs : s.initState = .ready) :
    Spec.Runs i s (registersAfter i s) (operationEvents i s) := by
  have hx := exec_ready hi hs
  refine ⟨hx, ?_⟩
  rw [operate_of_exec hx, finished_running (State.started_seq ..)]
  simp [State.completed, State.started, hs, InitState.settled, Pins.performAll]

/-- What is left to show of an operation without operands is its opcode and its events. -/
theorem guardedOperation_of_events {opc : Byte} {i : Instr} {events : State → List Event} (hopc : i.opcode = opc)
    (hfields : ∀ w, carries w i) (hi : Spec.isInit i = false)
    (hevents : ∀ s, s.initState = .ready → operationEvents i s = events s) :
    Spec.GuardedOperation opc i (registersAfter i) events :=
  ⟨fun w hw => (decode_eq_ok_iff w i).2 ⟨hw.trans hopc.symm, hfields w⟩,
    fun s => guardRefusesUntilReady i s hi,
    fun s hs => hevents s hs ▸ runs_ready hi hs⟩

/-- The six operations of the control register write it (R123 to R128). -/
theorem controlWrite_eq_some {i : Instr} (hi : Spec.isControl i = true) : ∃ f, controlWrite i = some f := by
  cases i with
  | display | noDisplay | cursor | noCursor | blink | noBlink => exact ⟨_, rfl⟩
  | _ => cases hi

/-- The four operations of the entry-mode register write it (R131 to R134). -/
theorem entryWrite_eq_some {i : Instr} (hi : Spec.isEntry i = true) : ∃ f, entryWrite i = some f := by
  cases i with
  | leftToRight | rightToLeft | autoscroll | noAutoscroll => exact ⟨_, rfl⟩
  | _ => cases hi

/-! ### The events of the high-level operations, in the spec's short form (R120 to R135) -/

section
variable {s : State} (hs : s.initState = .ready)
include hs

theorem operationEvents_rawCommand (b : Byte) : operationEvents (.command b) s = command b :=
  operationEvents_started (guarded_ready hs)

theorem operationEvents_setCursor (col row : Byte) : operationEvents (.setCursor col row) s =
    Spec.B false (s.cmd.setDdramAddr ||| (col + s.rowOffsetTable[clampRow row s.numLines])) := by
  rw [← sendByte_eq_B]
  exact operationEvents_started (guarded_ready hs)

theorem operationEvents_scrollLeft : operationEvents .scrollDisplayLeft s =
    Spec.B false (s.cmd.cursorShift ||| s.cmd.displayMove ||| s.cmd.moveLeft) := by
  rw [← sendByte_eq_B]
  exact operationEvents_started (guarded_ready hs)

theorem operationEvents_scrollRight : operationEvents .scrollDisplayRight s =
    Spec.B false (s.cmd.cursorShift ||| s.cmd.displayMove ||| s.cmd.moveRight) := by
  rw [← sendByte_eq_B]
  exact operationEvents_started (guarded_ready hs)

/-- A display-control operation sends its register as it is after the write (R137). -/
theorem operationEvents_control {i : Instr} (hi : Spec.isControl i = true) :
    operationEvents i s = Spec.B false (Spec.controlByte s.cmd ((controlWrite i).getD id s.controlFlags)) := by
  obtain ⟨f, hf⟩ := controlWrite_eq_some hi
  rw [← serControl_eq_controlByte, ← sendByte_eq_B, hf]
  exact operationEvents_started ((exec_controlWrite hf s).trans (updateControl_ready hs f))

/-- An entry-mode operation sends its register as it is after the write (R137). -/
theorem operationEvents_entry {i : Instr} (hi : Spec.isEntry i = true) :
    operationEvents i s = Spec.B false (Spec.entryByte s.cmd ((entryWrite i).getD id s.entryModeFlags)) := by
  obtain ⟨f, hf⟩ := entryWrite_eq_some hi
  rw [← serEntry_eq_entryByte, ← sendByte_eq_B, hf]
  exact operationEvents_started ((exec_entryWrite hf s).trans (updateEntry_ready hs f))

end

/-! ### CLEAR and HOME (R120, R121, R226) -/

/-- Settles O22, by the events of the two operations; neither has an operand or writes a register. -/
theorem clearAndHomeResults : Obligations.ClearAndHomeResults :=
  ⟨guardedOperation_of_events rfl (fun _ => trivial) rfl fun s hs => by
      rw [operationEvents_clear hs, command, sendByte_eq_B],
    guardedOperation_of_events rfl (fun _ => trivial) rfl fun s hs => by
      rw [operationEvents_home hs, command, sendByte_eq_B]⟩

/-- Settles O35: both sides begin with the same byte. -/
theorem rawClearAndHomeDoNotWait : Obligations.RawClearAndHomeDoNotWait := fun s hs =>
  ⟨by rw [operationEvents_clear hs, operationEvents_rawCommand hs],
    by rw [operationEvents_home hs, operationEvents_rawCommand hs]⟩

/-! ### SETCURSOR (R122) -/

/-- With lines to clamp to, the row is the spec's (R122). -/
theorem clampRow_val {numLines : Byte} (h : numLines ≠ 0) (row : Byte) :
    (clampRow row numLines).val = min row.toNat (min 4 numLines.toNat - 1) := by
  rw [clampRow, if_neg h]

/-- Without lines the row is the free value (log 9). -/
theorem clampRow_zero (row : Byte) : clampRow row 0 = Config.rowWithoutLines row := if_pos rfl

/-- Settles O23: the row is `clampRow`, which is the spec's where there are lines. -/
theorem setCursorResult : Obligations.SetCursorResult :=
  ⟨fun w hopc => (decode_eq_ok_iff w _).2 ⟨hopc, rfl, rfl⟩, fun col row s =>
    ⟨guardRefusesUntilReady _ s rfl, fun hs hlines =>
      ⟨clampRow row s.numLines, clampRow_val hlines row, operationEvents_setCursor hs col row ▸ runs_ready rfl hs⟩⟩⟩

/-- Settles O24: the same run, with the free row for `clampRow`. -/
theorem setCursorWithoutLinesStillSends : Obligations.SetCursorWithoutLinesStillSends := by
  intro col row s hs hlines
  have hruns := runs_ready (i := .setCursor col row) rfl hs
  rw [operationEvents_setCursor hs] at hruns
  simp only [hlines, clampRow_zero] at hruns
  exact hruns

/-! ### The operations of the two registers, and the scrolls (R123 to R134) -/

/-- A display-control operation writes its field and sends the whole register (R123 to R128). -/
theorem guardedOperation_control {opc : Byte} {i : Instr} (hopc : i.opcode = opc) (hi : Spec.isControl i = true) :
    Spec.GuardedOperation opc i (registersAfter i)
      (fun s => Spec.B false (Spec.controlByte s.cmd ((controlWrite i).getD id s.controlFlags))) := by
  cases i with
  | display | noDisplay | cursor | noCursor | blink | noBlink =>
    exact guardedOperation_of_events hopc (fun _ => trivial) rfl fun _ hs => operationEvents_control hs hi
  | _ => cases hi

/-- Settles O25: the shared form of the control register, once for each opcode. -/
theorem displayControlResults : Obligations.DisplayControlResults :=
  ⟨guardedOperation_control rfl rfl, guardedOperation_control rfl rfl, guardedOperation_control rfl rfl,
    guardedOperation_control rfl rfl, guardedOperation_control rfl rfl, guardedOperation_control rfl rfl⟩

/-- Settles O26, by the events of the two scrolls. -/
theorem scrollResults : Obligations.ScrollResults :=
  ⟨guardedOperation_of_events rfl (fun _ => trivial) rfl fun _ => operationEvents_scrollLeft,
    guardedOperation_of_events rfl (fun _ => trivial) rfl fun _ => operationEvents_scrollRight⟩

/-- An entry-mode operation writes its field and sends the whole register (R131 to R134). -/
theorem guardedOperation_entry {opc : Byte} {i : Instr} (hopc : i.opcode = opc) (hi : Spec.isEntry i = true) :
    Spec.GuardedOperation opc i (registersAfter i)
      (fun s => Spec.B false (Spec.entryByte s.cmd ((entryWrite i).getD id s.entryModeFlags))) := by
  cases i with
  | leftToRight | rightToLeft | autoscroll | noAutoscroll =>
    exact guardedOperation_of_events hopc (fun _ => trivial) rfl fun _ hs => operationEvents_entry hs hi
  | _ => cases hi

/-- Settles O27: the shared form of the entry-mode register, once for each opcode. -/
theorem entryModeResults : Obligations.EntryModeResults :=
  ⟨guardedOperation_entry rfl rfl, guardedOperation_entry rfl rfl, guardedOperation_entry rfl rfl,
    guardedOperation_entry rfl rfl⟩

/-! ### CREATECHAR (R135) -/

/-- The mask is applied before the shift, so only the slot modulo 8 counts (R135). -/
theorem cgramAddress_eq_mod (slot : Byte) : cgramAddress slot = BitVec.ofNat 8 (slot.toNat % 8 * 8) := by
  have hmask : slot.toNat &&& 7 = slot.toNat % 8 := Nat.and_two_pow_sub_one_eq_mod slot.toNat 3
  apply BitVec.eq_of_toNat_eq
  simp [cgramAddress, hmask, Nat.shiftLeft_eq]

/-- The rows of a bitmap are sent in index order, as data bytes. -/
theorem flatMap_writeByte_eq_B (bitmap : List Byte) : bitmap.flatMap writeByte = bitmap.flatMap (Spec.B true) :=
  List.flatMap_congr fun row _ => sendByte_eq_B row true

/-- Settles O28: the masked slot is the slot modulo 8, and the rows are the bitmap's in order. -/
theorem createCharResult : Obligations.CreateCharResult := by
  refine ⟨fun w hopc => (decode_eq_ok_iff w _).2 ⟨hopc, rfl, rfl⟩, fun slot b0 b1 b2 b3 b4 b5 b6 b7 s =>
    ⟨guardRefusesUntilReady _ s rfl, fun hs => ?_⟩⟩
  have hruns := runs_ready (i := .createChar slot [b0, b1, b2, b3, b4, b5, b6, b7]) rfl hs
  rw [operationEvents_createChar hs, cgramAddress_eq_mod, command, sendByte_eq_B, flatMap_writeByte_eq_B] at hruns
  exact hruns

/-! ### What an operation run to its response leaves of the registers (R105, R140) -/

section
variable (t : State)

@[simp] theorem finished_functionFlags : t.finished.functionFlags = t.functionFlags := by
  unfold State.finished; split <;> rfl

@[simp] theorem finished_controlFlags : t.finished.controlFlags = t.controlFlags := by
  unfold State.finished; split <;> rfl

@[simp] theorem finished_entryModeFlags : t.finished.entryModeFlags = t.entryModeFlags := by
  unfold State.finished; split <;> rfl

@[simp] theorem finished_rowOffsetTable : t.finished.rowOffsetTable = t.rowOffsetTable := by
  unfold State.finished; split <;> rfl

@[simp] theorem finished_numLines : t.finished.numLines = t.numLines := by
  unfold State.finished; split <;> rfl

end

theorem finished_ready {t : State} (ht : t.initState = .ready) : t.finished.initState = .ready := by
  cases hs : t.seq with
  | idle => rw [finished_idle hs, ht]
  | running l st => rw [finished_running hs, State.completed_initState]; exact congrArg _ ht

/-- The control register after `i`: each field is what `i` sets it to, or what it was (R140). -/
def controlSet (i : Instr) (f : ControlFlags) : ControlFlags :=
  ⟨(Spec.setsDisplay i).getD f.displayOn, (Spec.setsCursor i).getD f.cursorOn, (Spec.setsBlink i).getD f.blinkOn⟩

/-- The entry-mode register after `i`: each field is what `i` sets it to, or what it was (R140). -/
def entrySet (i : Instr) (f : EntryModeFlags) : EntryModeFlags :=
  ⟨(Spec.setsDirection i).getD f.leftToRight, (Spec.setsAutoscroll i).getD f.autoscroll⟩

theorem controlWrite_getD {i : Instr} (hi : Spec.isInit i = false) (f : ControlFlags) :
    (controlWrite i).getD id f = controlSet i f := by
  cases i with
  | init => cases hi
  | _ => rfl

theorem entryWrite_getD {i : Instr} (hi : Spec.isInit i = false) (f : EntryModeFlags) :
    (entryWrite i).getD id f = entrySet i f := by
  cases i with
  | init => cases hi
  | _ => rfl

/-- An INITIALIZE with legal rows sets every flag field to its default (R107). -/
theorem flagsSet_init_legal {n : Byte} (h : rowsLegal n = true) (c : Byte) (f : FontSize) (cf : ControlFlags)
    (ef : EntryModeFlags) :
    controlSet (.init c n f) cf = controlDefaults ∧ entrySet (.init c n f) ef = entryDefaults := by
  have hn := (rowsLegal_iff n).1 h
  simp [controlSet, entrySet, Spec.setsDisplay, Spec.setsCursor, Spec.setsBlink, Spec.setsDirection, Spec.setsAutoscroll, hn,
    controlDefaults, entryDefaults]

/-- A refused INITIALIZE sets none (R106). -/
theorem flagsSet_init_illegal {n : Byte} (h : rowsLegal n = false) (c : Byte) (f : FontSize) (cf : ControlFlags)
    (ef : EntryModeFlags) : controlSet (.init c n f) cf = cf ∧ entrySet (.init c n f) ef = ef := by
  have hn : ¬ (1 ≤ n.toNat ∧ n.toNat ≤ 4) := by rw [← rowsLegal_iff, h]; exact Bool.false_ne_true
  simp only [controlSet, entrySet, Spec.setsDisplay, Spec.setsCursor, Spec.setsBlink, Spec.setsDirection,
    Spec.setsAutoscroll, if_neg hn, Option.getD_none, and_self]

/-- INITIALIZE with legal rows, from any state: `Ready` with the default flags (R105, R107). -/
theorem operate_init_legal {n : Byte} (h : rowsLegal n = true) (c : Byte) (f : FontSize) (s : State) :
    (operate (.init c n f) s).initState = .ready ∧ (operate (.init c n f) s).controlFlags = controlDefaults ∧
    (operate (.init c n f) s).entryModeFlags = entryDefaults := by
  rw [operate_of_exec (exec_init_legal h c f s), finished_running (State.started_seq ..)]
  exact ⟨rfl, rfl, rfl⟩

/-- Any other operation, in any state, writes at most flag fields, and those all as R140 says or, refused, not at all. -/
theorem operate_registers {i : Instr} (hi : Spec.isInit i = false) (s : State) :
    (operate i s).functionFlags = s.functionFlags ∧ (operate i s).rowOffsetTable = s.rowOffsetTable ∧
    (operate i s).numLines = s.numLines ∧
    (((operate i s).controlFlags = s.controlFlags ∧ (operate i s).entryModeFlags = s.entryModeFlags) ∨
     ((operate i s).controlFlags = controlSet i s.controlFlags ∧
      (operate i s).entryModeFlags = entrySet i s.entryModeFlags)) := by
  by_cases hs : s.initState = .ready
  · rw [operate_of_exec (exec_ready hi hs)]
    simp [registersAfter_eq, controlWrite_getD hi, entryWrite_getD hi]
  · rw [operate_of_exec (t := s.responded .notInitialized) (guardRefusesUntilReady i s hi hs)]
    simp

/-- In `Ready` every operation sets the flag fields as R140 says, and the block stays `Ready`. -/
theorem operate_ready (i : Instr) {s : State} (hs : s.initState = .ready) :
    (operate i s).initState = .ready ∧ (operate i s).controlFlags = controlSet i s.controlFlags ∧
    (operate i s).entryModeFlags = entrySet i s.entryModeFlags := by
  cases hi : Spec.isInit i with
  | false =>
    rw [operate_of_exec (exec_ready hi hs)]
    exact ⟨finished_ready (by simpa using hs), by simp [registersAfter_eq, controlWrite_getD hi],
      by simp [registersAfter_eq, entryWrite_getD hi]⟩
  | true =>
    cases i with
    | init c n f =>
      cases hn : rowsLegal n with
      | true =>
        obtain ⟨hc, he⟩ := flagsSet_init_legal hn c f s.controlFlags s.entryModeFlags
        rw [hc, he]
        exact operate_init_legal hn c f s
      | false =>
        obtain ⟨hc, he⟩ := flagsSet_init_illegal hn c f s.controlFlags s.entryModeFlags
        rw [hc, he, operate_of_exec (exec_init_illegal hn c f s)]
        exact ⟨finished_ready hs, by simp, by simp⟩
    | _ => cases hi

/-! ### The last operation that sets a field decides it (R140) -/

theorem lastSet_cons_getD (sets : Instr → Option Bool) (i : Instr) (l : List Instr) (b : Bool) :
    (Spec.lastSet sets (i :: l)).getD b = (Spec.lastSet sets l).getD ((sets i).getD b) := by
  rw [Spec.lastSet, List.reverse_cons, List.findSome?_append, Option.getD_or, ← Spec.lastSet]
  simp

/-- From a `Ready` state each flag field ends as the last operation naming it set it, or as it was. -/
theorem operateAll_ready (l : List Instr) {s : State} (hs : s.initState = .ready) :
    (operateAll l s).controlFlags =
      ⟨(Spec.lastSet Spec.setsDisplay l).getD s.controlFlags.displayOn,
        (Spec.lastSet Spec.setsCursor l).getD s.controlFlags.cursorOn,
        (Spec.lastSet Spec.setsBlink l).getD s.controlFlags.blinkOn⟩ ∧
    (operateAll l s).entryModeFlags =
      ⟨(Spec.lastSet Spec.setsDirection l).getD s.entryModeFlags.leftToRight,
        (Spec.lastSet Spec.setsAutoscroll l).getD s.entryModeFlags.autoscroll⟩ := by
  induction l generalizing s with
  | nil => exact ⟨rfl, rfl⟩
  | cons i l ih =>
    obtain ⟨hready, hc, he⟩ := operate_ready i hs
    rw [operateAll_cons, (ih hready).1, (ih hready).2, hc, he]
    simp only [lastSet_cons_getD, controlSet, entrySet, and_self]

/-- Settles O32: one operation sets the fields it names and no other, and the sequence starts from INITIALIZE's defaults. -/
theorem flagFieldsAreIndependent : Obligations.FlagFieldsAreIndependent := by
  constructor
  · intro i s hi
    obtain ⟨hf, ht, hn, ⟨hc, he⟩ | ⟨hc, he⟩⟩ := operate_registers hi s <;> rw [hc, he]
    · exact ⟨hf, ht, hn, fun _ => rfl, fun _ => rfl, fun _ => rfl, fun _ => rfl, fun _ => rfl⟩
    · exact ⟨hf, ht, hn, fun h => by rw [controlSet, h]; rfl, fun h => by rw [controlSet, h]; rfl,
        fun h => by rw [controlSet, h]; rfl, fun h => by rw [entrySet, h]; rfl, fun h => by rw [entrySet, h]; rfl⟩
  · intro c n f l s hpos hle
    obtain ⟨hready, hc, he⟩ := operate_init_legal ((rowsLegal_iff n).2 ⟨hpos, hle⟩) c f s
    obtain ⟨hcl, hel⟩ := operateAll_ready l hready
    rw [operateAll_cons, hcl, hel, hc, he]
    exact ⟨rfl, rfl, rfl, rfl, rfl⟩

end Sys2Proof.Machine

namespace Sys2Proof.Machine

/-! ### COMMAND and WRITEBYTE (R160, R161) -/

theorem operationEvents_command_eq_B {s : State} (hs : s.initState = .ready) (b : Byte) :
    operationEvents (.command b) s = Spec.B false b :=
  (operationEvents_rawCommand hs b).trans (sendByte_eq_B b false)

/-- Settles O29, by the events of the two operations; neither writes a register. -/
theorem commandAndWriteByteResults : Obligations.CommandAndWriteByteResults := by
  refine ⟨fun w hopc => (decode_eq_ok_iff w _).2 ⟨hopc, rfl⟩, fun w hopc => (decode_eq_ok_iff w _).2 ⟨hopc, rfl⟩,
    fun byte s => ⟨fun hs => ?refused, fun hs => ?runs⟩⟩
  case refused => exact ⟨guardRefusesUntilReady _ s rfl hs, guardRefusesUntilReady _ s rfl hs⟩
  case runs =>
    rw [← operationEvents_command_eq_B hs, ← operationEvents_writeByte hs]
    exact ⟨runs_ready rfl hs, runs_ready rfl hs⟩

/-! ### The level of RS during a byte (R162, R170) -/

theorem rsEvents_cons (e : Event) (l : List Event) : rsEvents (e :: l) = rsEvents l + rsEvents [e] := by
  simp [rsEvents, List.countP_cons]

/-- Only an `RS` event moves RS (R175). -/
theorem perform_rs_of_rsEvents_eq_zero {e : Event} (h : rsEvents [e] = 0) (p : Pins) : (p.perform e).rs = p.rs := by
  cases e with
  | rs level => cases h
  | en | data | wait => rfl

/-- Events without an `RS` among them leave RS as it was. -/
theorem performAll_rs_of_rsEvents_eq_zero {l : List Event} (h : rsEvents l = 0) (p : Pins) :
    (p.performAll l).rs = p.rs := by
  induction l generalizing p with
  | nil => rfl
  | cons e l ih =>
    obtain ⟨hl, he⟩ := Nat.add_eq_zero_iff.1 ((rsEvents_cons e l).symm.trans h)
    rw [performAll_cons, ih hl, perform_rs_of_rsEvents_eq_zero he]

theorem rsEvents_take_le (k : Nat) (l : List Event) : rsEvents (l.take k) ≤ rsEvents l :=
  (List.take_sublist k l).countP_le

/-- The two nibbles of a byte hold no `RS` event (R171, R172). -/
theorem rsEvents_nibbles (hi lo : Byte) : rsEvents (sendNibble hi ++ sendNibble lo) = 0 := rfl

/-- Settles O41: the first event sets the level, and no event after it moves RS. -/
theorem modeSelectHoldsThroughoutAByte : Obligations.ModeSelectHoldsThroughoutAByte := by
  intro v rs p k hk
  obtain ⟨m, rfl⟩ := Nat.exists_eq_add_of_le' hk
  have hnone : rsEvents ((sendNibble (v >>> 4) ++ sendNibble v).take m) = 0 :=
    Nat.le_zero.1 ((rsEvents_take_le m _).trans_eq (rsEvents_nibbles _ _))
  rw [sendByte, List.take_succ_cons, performAll_cons, performAll_rs_of_rsEvents_eq_zero hnone, Pins.perform]

end Sys2Proof.Machine

namespace Sys2Proof.Machine

/-! ### The events of an accepted operation, all forms at once (R100, R120 to R135, R160, R161) -/

/-- An accepted operation is an INITIALIZE, sends one byte, sends one byte and waits, or sends a byte and a bitmap. -/
theorem operationEvents_cases {i : Instr} {s : State} (h : Spec.Accepted i s) :
    (∃ c n f, i = .init c n f ∧ operationEvents i s = initEvents s.cmd (functionFlagsOf n f)) ∨
    (sendsOneByte i = true ∧ ∃ v rs, operationEvents i s = sendByte v rs) ∨
    ((i = .clear ∨ i = .home) ∧ ∃ b, operationEvents i s = sendByte b false ++ [.wait .homeClear]) ∨
    (∃ slot bitmap b, i = .createChar slot bitmap ∧
      operationEvents i s = sendByte b false ++ bitmap.flatMap writeByte) := by
  obtain ⟨c, n, f, rfl, hn⟩ | ⟨hinit, hs⟩ := h
  · exact .inl ⟨c, n, f, rfl, operationEvents_init ((rowsLegal_iff n).2 hn) s⟩
  cases hi : sendsOneByte i with
  | true => exact .inr (.inl ⟨rfl, operationEvents_oneByte hs hi⟩)
  | false =>
    cases i with
    | init => cases hinit
    | clear => exact .inr (.inr (.inl ⟨.inl rfl, _, operationEvents_clear hs⟩))
    | home => exact .inr (.inr (.inl ⟨.inr rfl, _, operationEvents_home hs⟩))
    | createChar slot bitmap =>
      exact .inr (.inr (.inr ⟨slot, bitmap, _, rfl, operationEvents_createChar hs slot bitmap⟩))
    | _ => cases hi

/-- An operation that does not pass its checks performs no event (R106, R138, R195). -/
theorem operationEvents_of_not_accepted {i : Instr} {s : State} (h : ¬ Spec.Accepted i s) (hs : s.seq = .idle) :
    operationEvents i s = [] := by
  cases hi : Spec.isInit i with
  | false =>
    have hready : s.initState ≠ .ready := fun hr => h ((accepted_guarded hi s).2 hr)
    exact operationEvents_of_idle (t := s.responded .notInitialized) (guardRefusesUntilReady i s hi hready) hs
  | true =>
    cases i with
    | init c n f =>
      have hn : rowsLegal n = false := by
        rwa [accepted_init, not_not, ← rowsLegal_eq_false_iff] at h
      exact operationEvents_of_idle (t := s.responded .badOperand) (exec_init_illegal hn c f s) hs
    | _ => cases hi

/-! ### The table of counts (R174) -/

/-- Every count of the table adds up over lists one after another. -/
@[simp] theorem counts_append (l m : List Event) : Spec.counts (l ++ m) = Spec.counts l + Spec.counts m := by
  simp [Spec.counts, enPulses, rsEvents, waitEvents]

@[simp] theorem counts_wait (q : TimingParam) : Spec.counts [.wait q] = (1, 0, 0, 1) := rfl

theorem counts_pulseEnable : Spec.counts pulseEnable = (6, 1, 0, 3) := rfl

@[simp] theorem counts_sendNibble (n : Byte) : Spec.counts (sendNibble n) = (7, 1, 0, 3) := rfl

@[simp] theorem counts_sendByte (v : Byte) (rs : Bool) : Spec.counts (sendByte v rs) = (15, 2, 1, 6) := rfl

theorem counts_bitmap (bitmap : List Byte) :
    Spec.counts (bitmap.flatMap writeByte) = bitmap.length • ((15, 2, 1, 6) : Nat × Nat × Nat × Nat) := by
  induction bitmap with
  | nil => rfl
  | cons row rows ih =>
    rw [List.flatMap_cons, counts_append, ih, writeByte, counts_sendByte, List.length_cons, succ_nsmul']

/-- The three events of steps 2 and 3, four bare nibbles, four bytes and four waits (R100). -/
theorem counts_initEvents (c : Cmd) (f : FunctionFlags) : Spec.counts (initEvents c f) = (95, 12, 5, 41) := by
  have hpre : Spec.counts handshakePreamble = (3, 0, 1, 1) := rfl
  simp only [initEvents, handshakeNibbles, command, counts_append, counts_sendNibble, counts_sendByte, counts_wait, hpre]
  rfl

theorem expectedCounts_oneByte {i : Instr} (hi : sendsOneByte i = true) : Spec.expectedCounts i = (15, 2, 1, 6) := by
  cases i with
  | init | clear | home | createChar => cases hi
  | _ => rfl

/-- The row of a well-formed operation that passes its checks; a well-formed CREATECHAR has eight bitmap rows. -/
theorem counts_of_accepted {i : Instr} {s : State} (hwf : i.wellFormed = true) (h : Spec.Accepted i s) :
    Spec.counts (operationEvents i s) = Spec.expectedCounts i := by
  rcases operationEvents_cases h with
    ⟨c, n, f, rfl, hl⟩ | ⟨hi, v, rs, hl⟩ | ⟨hi, b, hl⟩ | ⟨slot, bitmap, b, rfl, hl⟩ <;> rw [hl]
  · exact counts_initEvents ..
  · rw [counts_sendByte, expectedCounts_oneByte hi]
  · rw [counts_append, counts_sendByte, counts_wait]
    obtain rfl | rfl := hi <;> rfl
  · have hlen : bitmap.length = 8 := by simpa [Instr.wellFormed] using hwf
    rw [counts_append, counts_sendByte, counts_bitmap, hlen]
    rfl

/-- Settles O42, by the form of an accepted operation's event list; a refused one has none. -/
theorem eventCountsAreTheTable : Obligations.EventCountsAreTheTable :=
  ⟨counts_pulseEnable, counts_sendNibble, counts_sendByte, fun _ _ hwf h => counts_of_accepted hwf h,
    fun _ _ h hs => congrArg Spec.counts (operationEvents_of_not_accepted h hs)⟩

/-! ### Every nibble is strobed by one whole pulse (R171 to R173) -/

/-- Two strobed lists one after the other are strobed. -/
theorem strobed_append {l m : List Event} (hl : strobed l = true) (hm : strobed m = true) : strobed (l ++ m) = true := by
  induction l using strobed.induct with
  | case1 => exact hm
  | case2 level l ih => exact ih hl
  | case3 q l ih => exact ih hl
  | case4 n l ih => exact ih hl
  | case5 => simp_all [strobed]

/-- In a strobed list the pulses are as many as the nibbles. -/
theorem enPulses_eq_dataEvents_of_strobed {l : List Event} (h : strobed l = true) : enPulses l = dataEvents l := by
  induction l using strobed.induct with
  | case1 => rfl
  | case2 level l ih => simpa [enPulses, dataEvents] using ih h
  | case3 q l ih => simpa [enPulses, dataEvents] using ih h
  | case4 n l ih => simpa [enPulses, dataEvents] using ih h
  | case5 => simp_all [strobed]

@[simp] theorem strobed_sendByte (v : Byte) (rs : Bool) : strobed (sendByte v rs) = true := rfl

theorem strobed_bitmap (bitmap : List Byte) : strobed (bitmap.flatMap writeByte) = true := by
  induction bitmap with
  | nil => rfl
  | cons row rows ih => exact strobed_append (strobed_sendByte row true) ih

/-- The events of INITIALIZE after its step 3 are strobed (R100, R103). -/
theorem initEvents_eq_preamble_append (c : Cmd) (f : FunctionFlags) :
    ∃ body, initEvents c f = handshakePreamble ++ body ∧ strobed body = true :=
  ⟨(initEvents c f).drop 3, rfl, rfl⟩

/-- An operation that passes its checks is strobed but for the first three events of INITIALIZE. -/
theorem strobed_of_accepted {i : Instr} {s : State} (h : Spec.Accepted i s) :
    ∃ body, operationEvents i s = (if Spec.isInit i = true then handshakePreamble else []) ++ body ∧ strobed body = true := by
  rcases operationEvents_cases h with
    ⟨c, n, f, rfl, hl⟩ | ⟨hi, v, rs, hl⟩ | ⟨hi, b, hl⟩ | ⟨slot, bitmap, b, rfl, hl⟩ <;> rw [hl]
  · exact initEvents_eq_preamble_append ..
  · have hinit : Spec.isInit i = false := isInit_of_ne_init (by rintro c n f rfl; cases hi)
    exact ⟨_, by rw [hinit]; rfl, strobed_sendByte v rs⟩
  · have hinit : Spec.isInit i = false := by obtain rfl | rfl := hi <;> rfl
    exact ⟨_, by rw [hinit]; rfl, strobed_append (strobed_sendByte b false) rfl⟩
  · exact ⟨_, rfl, strobed_append (strobed_sendByte b false) (strobed_bitmap bitmap)⟩

/-- Settles O43: the list after the head is strobed, and so has as many pulses as nibbles. -/
theorem everyNibbleIsStrobedOnce : Obligations.EveryNibbleIsStrobedOnce := by
  intro i s h
  obtain ⟨body, hl, hbody⟩ := strobed_of_accepted h
  exact ⟨_, body, hl, hbody, enPulses_eq_dataEvents_of_strobed hbody, by split <;> rfl⟩

/-! ### EN is low whenever RS or the data pins are written (R173, R228) -/

section
variable {en level : Bool} {x : Nibble} {l : List Event}

theorem en_low_of_strobeSafe_rs (h : strobeSafe en (.rs level :: l) = true) : en = false := by
  simpa using (Bool.and_eq_true_iff.1 h).1

theorem en_low_of_strobeSafe_data (h : strobeSafe en (.data x :: l) = true) : en = false := by
  simpa using (Bool.and_eq_true_iff.1 h).1

/-- An INITIALIZE that is about to drive RS low in its step 3 has more events pending than follow that step. -/
theorem length_of_settlesEnable_rs (h : settlesEnable (.rs level :: l) = true) : 92 < l.length := by
  unfold settlesEnable at h
  split at h
  case h_1 heq => cases heq
  case h_2 rest heq =>
    obtain ⟨-, rfl⟩ := List.cons.inj heq
    have hlen : rest.length = 92 := by simpa [eventsAfterStep3] using (Bool.and_eq_true_iff.1 h).2
    simp [hlen]
  case h_3 heq => cases heq
  case h_4 => cases h

/-- Before its step 3 an INITIALIZE is not at a nibble. -/
theorem settlesEnable_data : settlesEnable (.data x :: l) = false := rfl

end

/-- Settles O49, from the enable line's clause of the invariant; an INITIALIZE whose step 3 is still pending is excluded by its
length at an RS event, and is never at a nibble. -/
theorem enableIsLowWheneverLinesMove : Obligations.EnableIsLowWheneverLinesMove := by
  intro cmd inputs n s hreach
  have hinv := (reachedBy_inv hreach).strobe
  refine ⟨fun hi => ⟨fun hs => ?idle, fun level l st hs => ?rs, fun x l st hs => ?data⟩,
    fun hi => ⟨fun level l st hs hlen => ?initRs, fun x l st hs => ?initData⟩⟩
  case idle => exact (strobeInv_ready_idle hi hs).1 hinv
  case rs => exact en_low_of_strobeSafe_rs ((strobeInv_ready_running hi hs).1 hinv)
  case data => exact en_low_of_strobeSafe_data ((strobeInv_ready_running hi hs).1 hinv)
  case initRs =>
    rcases (strobeInv_initializing_running hi hs).1 hinv with h | h
    · exact en_low_of_strobeSafe_rs h
    · have hmore := length_of_settlesEnable_rs h
      rw [List.length_cons] at hlen
      omega
  case initData =>
    rcases (strobeInv_initializing_running hi hs).1 hinv with h | h
    · exact en_low_of_strobeSafe_data h
    · exact absurd (settlesEnable_data.symm.trans h) Bool.false_ne_true

end Sys2Proof.Machine
